-- ==== Sys2Proof/Word.lean ====
section
/-! DEFINITION. The words of OZ-E131: unsigned bit vectors of the widths the spec uses (00_scope.md R9). -/

namespace Sys2Proof

/-- A byte: 8 bits, bit 0 least significant (R9). -/
abbrev Byte := BitVec 8

/-- An unsigned 16-bit word (R9): universe numbers, pixel indices, a report's `info`. -/
abbrev U16 := BitVec 16

/-- A datagram: the bytes `D[0] .. D[N-1]` in arrival order, of any length `N` (R10, R64). -/
abbrev Datagram := List Byte

end Sys2Proof
end

