-- ==== Sys2Proof/Config.lean ====
section
/-! DEFINITION. What an instance of OZ-E131 fixes (00_scope.md R7): the shape of the wire constants, the default
parameters, and the one free value of the block's surroundings, the device's answer. -/

namespace Sys2Proof

/-- The answer of the device collaborator to one `applyRgb` call (42_datagram_step.md R153). -/
inductive Answer where
  | ok
  | err
  deriving DecidableEq, Repr, Inhabited

/-- The place of one field in the datagram (30_encoding.md R61): the offset of its first byte, and its bytes. -/
structure WireField where
  off : Nat
  width : Nat
  deriving DecidableEq, Repr

/-- The wire constants as one record of named fields: every offset, width and value of 30_encoding.md R61 to R63 and R66.
Decoder and encoder take each constant from here and from nowhere else, so that an auditor can change one without
touching a rule (R60). The values this hardware takes are `Sys2Proof.wire` in Decode.lean. -/
structure WireConfig where
  preamble : WireField
  postamble : WireField
  acnId : WireField
  rootFlen : WireField
  rootVec : WireField
  cid : WireField
  frameFlen : WireField
  frameVec : WireField
  sourceName : WireField
  priority : WireField
  syncAddress : WireField
  seq : WireField
  options : WireField
  univ : WireField
  dmpFlen : WireField
  dmpVec : WireField
  addressType : WireField
  firstAddress : WireField
  increment : WireField
  pvc : WireField
  startCode : WireField
  /-- `OFF_DATA`, which is `HDR_LEN` and `MIN_LEN` too (R63; 00_scope.md R7). -/
  offData : Nat
  vecRootData : Nat
  vecFramingData : Nat
  vecDmpSetProperty : Nat
  startCodeDmx : Nat
  /-- How many low bits of a flags-and-length field are its length (R66). -/
  lengthBits : Nat
  /-- The flags of a standard packet, above the length (R66). Written by the encoder, not examined. -/
  stdFlags : Nat
  /-- This and the next ten: the standard values of the ignored fields (R61, R81), each a number of its field's width. -/
  stdPreamble : Nat
  stdPostamble : Nat
  stdAcnId : Nat
  stdCid : Nat
  stdSourceName : Nat
  stdPriority : Nat
  stdSyncAddress : Nat
  stdOptions : Nat
  stdAddressType : Nat
  stdFirstAddress : Nat
  stdIncrement : Nat
  minChannels : Nat
  maxChannels : Nat
  /-- `MAX_LEN`, the largest datagram that can decode (00_scope.md R7). -/
  maxLen : Nat
  univMin : Nat
  univMax : Nat
  deriving DecidableEq, Repr

/-- `MIN_LEN`, the bytes before the first channel byte (00_scope.md R7). -/
abbrev WireConfig.minLen (w : WireConfig) : Nat := w.offData

/-- `SEQ_WINDOW` of this hardware: 127 (R7, R8). -/
def Config.seqWindow : Byte := 127#8

/-- `DEV_ERR_ABORT` of this hardware: false (R7; 92_eei_decisions.md D12). -/
def Config.devErrAbort : Bool := false

/-- The strap `cfg_target_universe` that `State.reset` samples. DESIGN CHOICE (log entry 3): the spec gives no
default. Unsafe: a statement that uses this value speaks of one instance only. -/
def Config.defaultTarget : U16 := 1#16

/-- The strap `cfg_pixel_count` that `State.reset` samples. DESIGN CHOICE (log entry 3): the spec gives no default.
Unsafe: as above. -/
def Config.defaultPixels : U16 := 1#16

/-- The device's answer to the `n`-th call for which the environment has scripted none: a free value without a body,
`ok` or `err` under no law (93_implementation_defined.md U3; log entry 5). Safe: nothing can be proved of it. -/
opaque Config.freeAnswer : Nat → Answer

end Sys2Proof
end

