-- ==== Sys2Proof/Syntax.lean ====
section
/-! DEFINITION. The instructions of OZ-E131, one constructor per row of spec/opcode_table.json, and the
names the decoder answers with: the DataFrame and the reasons of rejection. -/

namespace Sys2Proof

/-- The decoder's result (00_scope.md R14, 10_state.md R21): `univ` (the universe) u16, `sequenceNumber` u8,
`channelData` bytes, index 0 = DMX channel 1. -/
structure DataFrame where
  univ : U16
  seq : Byte
  data : List Byte
  deriving DecidableEq, Repr

/-- The layer tag a `wrong_vector` rejection carries (40_frame_decoder.md R91 to R93). -/
inductive Layer where
  | root
  | framing
  | dmp
  deriving DecidableEq, Repr

/-- The four reasons of `MalformedPacketError`, a closed list (40_frame_decoder.md R98). -/
inductive Malformed where
  | truncated
  | wrongVector (layer : Layer)
  | lengthMismatch
  | badStartCode
  deriving DecidableEq, Repr

/-- The thirteen instructions (30_encoding.md R69, R70). `e131Data` is the one wire instruction, in the
notation `E131` with `u`, `seq`, `data` of R80; the other twelve are the operations every datagram runs, in this
order. They take their operands from the state and have no words of their own. -/
inductive Instr where
  /-- `E131_DATA`, the whole datagram step (R150). -/
  | e131Data (univ : U16) (seq : Byte) (data : List Byte)
  /-- `V1.MINLEN` (R90). -/
  | v1MinLen
  /-- `V2.ROOTVEC` (R91). -/
  | v2RootVec
  /-- `V3.FRAMEVEC` (R92). -/
  | v3FrameVec
  /-- `V4.DMPVEC` (R93). -/
  | v4DmpVec
  /-- `V5.LENGTHS` (R94). -/
  | v5Lengths
  /-- `V6.STARTCODE` (R95). -/
  | v6StartCode
  /-- `X.EXTRACT` (R96). -/
  | xExtract
  /-- `S1.UFILTER` (R120). -/
  | s1UFilter
  /-- `S2.SEQ` (R121). -/
  | s2Seq
  /-- `S3.LENCHK` (R123). -/
  | s3LenChk
  /-- `S4.MAP` (R124). -/
  | s4Map
  /-- `S5.FORWARD` (R125). -/
  | s5Forward
  deriving DecidableEq, Repr

end Sys2Proof
end

