-- ==== Sys2Proof/Decode.lean ====
section
/-! DEFINITION. The wire format of OZ-E131: the wire constants, the read primitive, the six checks as predicates of
a datagram, the decoder (total, rejecting by name) and, after it, the encoder. Every offset, width and vector value
is the spec's own general-knowledge constant (30_encoding.md R60 to R63; log entry 4). -/

namespace Sys2Proof

/-- The wire constants of this hardware (30_encoding.md R61 to R63, R66, R81; 00_scope.md R7). -/
abbrev wire : WireConfig where
  preamble := ⟨0, 2⟩
  postamble := ⟨2, 2⟩
  acnId := ⟨4, 12⟩
  rootFlen := ⟨16, 2⟩
  rootVec := ⟨18, 4⟩
  cid := ⟨22, 16⟩
  frameFlen := ⟨38, 2⟩
  frameVec := ⟨40, 4⟩
  sourceName := ⟨44, 64⟩
  priority := ⟨108, 1⟩
  syncAddress := ⟨109, 2⟩
  seq := ⟨111, 1⟩
  options := ⟨112, 1⟩
  univ := ⟨113, 2⟩
  dmpFlen := ⟨115, 2⟩
  dmpVec := ⟨117, 1⟩
  addressType := ⟨118, 1⟩
  firstAddress := ⟨119, 2⟩
  increment := ⟨121, 2⟩
  pvc := ⟨123, 2⟩
  startCode := ⟨125, 1⟩
  offData := 126
  vecRootData := 0x00000004
  vecFramingData := 0x00000002
  vecDmpSetProperty := 0x02
  startCodeDmx := 0x00
  lengthBits := 12
  stdFlags := 0x7
  stdPreamble := 0x0010
  stdPostamble := 0x0000
  stdAcnId := 0x4153432d45312e3137000000
  stdCid := 0
  stdSourceName := 0
  stdPriority := 0x64
  stdSyncAddress := 0x0000
  stdOptions := 0x00
  stdAddressType := 0xa1
  stdFirstAddress := 0x0000
  stdIncrement := 0x0001
  minChannels := 1
  maxChannels := 512
  maxLen := 638
  univMin := 1
  univMax := 63999

/-! ## The read primitive (20_memory.md R41, R42) -/

/-- The unsigned number whose big-endian bytes these are: the byte at the lower offset is the more significant
(20_memory.md R42). -/
def beNat (bytes : List Byte) : Nat :=
  bytes.foldl (fun acc b => acc * 256 + b.toNat) 0

/-- The number in the `n` bytes at offset `off`, for reads the rules have already shown to be in bounds. -/
def field (D : Datagram) (off n : Nat) : Nat :=
  beNat ((D.drop off).take n)

/-- `DG(off, n)` (20_memory.md R41): defined only when `off + n <= N`. -/
def dg (D : Datagram) (off n : Nat) : Option Nat :=
  if off + n ≤ D.length then some (field D off n) else none

/-- The number in a named field of the layout, for reads the rules have already shown to be in bounds. -/
abbrev fieldOf (D : Datagram) (f : WireField) : Nat := field D f.off f.width

/-- The length of a flags-and-length field, its low bits; the high bits are not examined (30_encoding.md R66). -/
def lowLength (v : Nat) : Nat := v % 2 ^ wire.lengthBits

/-! ## The checks (40_frame_decoder.md R90 to R95) -/

/-- R90: long enough for the three fixed layers. -/
def minLenOk (n : Nat) : Bool := wire.minLen ≤ n

/-- R91: the root vector, all 32 bits. -/
def rootVecOk (v : Nat) : Bool := v == wire.vecRootData

/-- R92: the framing vector, all 32 bits. -/
def frameVecOk (v : Nat) : Bool := v == wire.vecFramingData

/-- R93: the DMP vector, 8 bits. -/
def dmpVecOk (v : Nat) : Bool := v == wire.vecDmpSetProperty

/-- The property value counts a DataFrame allows: start code plus 1..512 channels (R94, `2 <= PVC <= 513`). -/
def pvcInRange (pvc : Nat) : Bool :=
  wire.minChannels + 1 ≤ pvc && pvc ≤ wire.maxChannels + 1

/-- R94: the declared counts `RL`, `FL`, `DL` (low bits of the fields `rl`, `fl`, `dl`) and `PVC` agree with
the actual byte count `n`, which is no more than `MAX_LEN` ("`N > 638`: rejected, `length_mismatch`, whatever the counts
say"). The comparisons are of natural numbers. -/
def lengthsOk (rl fl dl pvc n : Nat) : Bool :=
  lowLength rl == n - wire.rootFlen.off && lowLength fl == n - wire.frameFlen.off &&
    lowLength dl == n - wire.dmpFlen.off && pvc == n - wire.startCode.off && pvcInRange pvc &&
    n ≤ wire.maxLen

/-- R95: the start code. -/
def startCodeOk (v : Nat) : Bool := v == wire.startCodeDmx

/-! ## The decoder (40_frame_decoder.md R97) -/

/-- `channelData = D[126..N-1]` (30_encoding.md R68). -/
def channelBytes (D : Datagram) : List Byte := D.drop wire.offData

/-- What extraction takes from a datagram that passed every check (40_frame_decoder.md R96). -/
def frameOf (D : Datagram) : DataFrame where
  univ := BitVec.ofNat 16 (fieldOf D wire.univ)
  seq := BitVec.ofNat 8 (fieldOf D wire.seq)
  data := channelBytes D

/-- `decode` (40_frame_decoder.md R97): total on any bytes, all or nothing, the first failing check gives the reason
(R98). Every read after the first check is in bounds. -/
def decode (D : Datagram) : Except Malformed DataFrame :=
  if !minLenOk D.length then .error .truncated
  else if !rootVecOk (fieldOf D wire.rootVec) then .error (.wrongVector .root)
  else if !frameVecOk (fieldOf D wire.frameVec) then .error (.wrongVector .framing)
  else if !dmpVecOk (fieldOf D wire.dmpVec) then .error (.wrongVector .dmp)
  else if !lengthsOk (fieldOf D wire.rootFlen) (fieldOf D wire.frameFlen) (fieldOf D wire.dmpFlen) (fieldOf D wire.pvc)
      D.length then .error .lengthMismatch
  else if !startCodeOk (fieldOf D wire.startCode) then .error .badStartCode
  else .ok (frameOf D)

/-- The instruction a datagram is (30_encoding.md R69, R71): `E131_DATA` or a rejection by name. The twelve
operations are selected by order, not by bits (R70), so no datagram decodes to one. -/
def decodeInstr (D : Datagram) : Except Malformed Instr :=
  match decode D with
  | .ok f => .ok (.e131Data f.univ f.seq f.data)
  | .error r => .error r

/-! ## The encoder (30_encoding.md R81) -/

/-- The low `8 * n` bits of `v` as `n` bytes, big-endian (20_memory.md R42); `be16(v)` of R81 is `beBytes 2 v`. -/
def beBytes : (n v : Nat) → List Byte
  | 0, _ => []
  | n + 1, v => BitVec.ofNat 8 (v / 256 ^ n) :: beBytes n v

/-- A standard flags-and-length field: the standard flags over the length (R66, R81). -/
def flagsLength (len : Nat) : Nat := wire.stdFlags <<< wire.lengthBits ||| len

/-- `D` with `bytes` written over it from offset `off` on. The length stays that of `D`. -/
def overwrite : (off : Nat) → (bytes D : List Byte) → List Byte
  | _, _, [] => []
  | off + 1, bytes, x :: D => x :: overwrite off bytes D
  | 0, [], x :: D => x :: D
  | 0, b :: bytes, _ :: D => b :: overwrite 0 bytes D

/-- `D` with the number `p.2` in the field `p.1`. -/
def putField (D : Datagram) (p : WireField × Nat) : Datagram :=
  overwrite p.1.off (beBytes p.1.width p.2) D

/-- Every field of the fixed part of a canonical datagram of length `n`, with its value (R61, R81). The property value
count `L + 1` is `n` less the start code's offset (R63). -/
def headerFields (n : Nat) (univ : U16) (seq : Byte) : List (WireField × Nat) :=
  [(wire.preamble, wire.stdPreamble), (wire.postamble, wire.stdPostamble), (wire.acnId, wire.stdAcnId),
   (wire.rootFlen, flagsLength (n - wire.rootFlen.off)), (wire.rootVec, wire.vecRootData), (wire.cid, wire.stdCid),
   (wire.frameFlen, flagsLength (n - wire.frameFlen.off)), (wire.frameVec, wire.vecFramingData),
   (wire.sourceName, wire.stdSourceName), (wire.priority, wire.stdPriority),
   (wire.syncAddress, wire.stdSyncAddress), (wire.seq, seq.toNat), (wire.options, wire.stdOptions),
   (wire.univ, univ.toNat),
   (wire.dmpFlen, flagsLength (n - wire.dmpFlen.off)), (wire.dmpVec, wire.vecDmpSetProperty),
   (wire.addressType, wire.stdAddressType), (wire.firstAddress, wire.stdFirstAddress),
   (wire.increment, wire.stdIncrement), (wire.pvc, n - wire.startCode.off), (wire.startCode, wire.startCodeDmx)]

/-- The fixed part of a canonical datagram of length `n`: every field at its place. -/
def encodeHeader (n : Nat) (univ : U16) (seq : Byte) : Datagram :=
  (headerFields n univ seq).foldl putField (List.replicate wire.offData 0x00#8)

/-- The canonical encoder (30_encoding.md R81), with `N = 126 + L`. -/
def encodeFrame (univ : U16) (seq : Byte) (data : List Byte) : Datagram :=
  encodeHeader (wire.offData + data.length) univ seq ++ data

/-- The bytes of an instruction, where it has any: `E131_DATA` has its datagram, the twelve operations have no words
(30_encoding.md R70: none is selected by bits). -/
def encode : Instr → Option Datagram
  | .e131Data u q d => some (encodeFrame u q d)
  | .v1MinLen => none
  | .v2RootVec => none
  | .v3FrameVec => none
  | .v4DmpVec => none
  | .v5Lengths => none
  | .v6StartCode => none
  | .xExtract => none
  | .s1UFilter => none
  | .s2Seq => none
  | .s3LenChk => none
  | .s4Map => none
  | .s5Forward => none

/-! ## Words numbered as spec/opcode_table.json numbers them -/

/-- The `n` lowest bytes of `w`, byte 0 (bits 7..0) first: the order of arrival. -/
def bytesOf (n w : Nat) : Datagram :=
  (List.range n).map fun k => BitVec.ofNat 8 (w >>> (8 * k))

/-- The datagram whose bits are `w`, of which the table gives `nbits`: those bytes, and where their property value
count declares a longer datagram of legal length, zero bytes up to that length (log entry 13). -/
def tableDatagram (nbits w : Nat) : Datagram :=
  let given := bytesOf ((nbits + 7) / 8) w
  let declared := wire.startCode.off + fieldOf given wire.pvc
  if declared ≤ wire.maxLen then given ++ List.replicate (declared - given.length) 0x00#8 else given

/-- The instruction the decoder reads from the datagram `tableDatagram nbits w`. -/
def decodeTableWord (nbits w : Nat) : Option Instr :=
  match decodeInstr (tableDatagram nbits w) with
  | .ok i => some i
  | .error _ => none

end Sys2Proof
end

