-- ==== Sys2Proof/Machine/State.lean ====
section
/-! DEFINITION. The state of OZ-E131 as plain data, the reasons a step can stop, and the state after reset. -/

namespace Sys2Proof.Machine

/-- The UniverseState table `US` (10_state.md R27, R40): a list of (universe, last sequence number) cells in one
canonical form (`usWf` in Ops.lean); an unlisted universe reads as `absent` (UNSEEN). -/
abbrev UsTable := List Host.Cell

/-- The configuration registers (10_state.md R24 to R26) and the open parameter `DEV_ERR_ABORT` (00_scope.md R7).
Sampled at reset; no operation writes them. -/
structure Cfg where
  /-- `CFG.TARGET_UNIVERSE`, configuration register 0. -/
  targetUniverse : U16
  /-- `CFG.PIXEL_COUNT`, configuration register 1. -/
  pixelCount : U16
  /-- `CFG.SEQ_WINDOW`, configuration register 2. -/
  seqWindow : Byte
  /-- `DEV_ERR_ABORT`: whether an `err` answer stops the later forwards of the same frame. -/
  devErrAbort : Bool
  deriving DecidableEq, Repr

/-- The configuration straps on the pins `cfg_target_universe` and `cfg_pixel_count` (42_datagram_step.md R156). -/
structure Straps where
  targetUniverse : U16
  pixelCount : U16
  deriving DecidableEq, Repr

/-- The DataFrame registers `F.UNIVERSE`, `F.SEQ`, `F.LEN` and `CH[0..F.LEN-1]` (10_state.md R21). -/
structure FrameRegs where
  univ : U16
  seq : Byte
  len : BitVec 10
  ch : List Byte
  deriving DecidableEq, Repr

/-- One RgbTriple with its pixel index: the registers `T.R`, `T.G`, `T.B`, `T.PIX` (10_state.md R22). -/
structure Triple where
  r : Byte
  g : Byte
  b : Byte
  pix : U16
  deriving DecidableEq, Repr

/-- One report on the event port: `(code : u4, severity : u1, info : u16)` (42_datagram_step.md R152). -/
structure Report where
  code : BitVec 4
  sev : BitVec 1
  info : U16
  deriving DecidableEq, Repr

/-- An event of a step (42_datagram_step.md R152, R153): a call on the device port or a report on the event port. -/
inductive Event where
  | call (r g b : Byte) (pixelIndex : U16)
  | report (r : Report)
  deriving DecidableEq, Repr

/-- The outcome of a step (42_datagram_step.md R155). `malformed` covers the four `MALFORMED` outcomes. -/
inductive Verdict where
  | malformed (r : Malformed)
  | dropUniverse
  | dropSeq (delta : Byte)
  | insufficient (have_ need : Nat)
  | applied (failed : List U16)
  deriving DecidableEq, Repr

/-- What an ended step showed (42_datagram_step.md R155; 70_reset_and_hazards.md R216): its outcome and its events, or,
for a step that a reset cut short, the events it had issued by then (R203). The model's record of the ports, no state
of the block (10_state.md R33; log entry 1). -/
inductive StepRecord where
  | completed (v : Verdict) (events : List Event)
  | cut (events : List Event)
  deriving DecidableEq, Repr

/-- What the environment presents to the block (42_datagram_step.md R151, R156; 70_reset_and_hazards.md R200, R203). -/
inductive Input where
  /-- A datagram, with the answers the device will give to this step's calls. -/
  | datagram (D : Datagram) (answers : List Answer)
  /-- A reset between steps, with the strap values it samples. -/
  | reset (straps : Straps)
  /-- A datagram whose step a reset cuts after `kept` events; how many is the environment's choice (R203, U11). -/
  | cutByReset (D : Datagram) (answers : List Answer) (kept : Nat) (straps : Straps)
  deriving DecidableEq, Repr

/-- The block's state, all that survives a step: "A model's `State` type is therefore exactly `US`" (10_state.md R20). It
holds nothing that R33 keeps out. -/
structure Block where
  /-- `US` (10_state.md R27). -/
  us : UsTable
  deriving DecidableEq, Repr

/-- What exists only within one step (10_state.md R20 to R23): its input, the transient registers, the cursors and its
output so far. -/
structure InProgress where
  /-- The datagram in progress, `D` (20_memory.md R40); `none` between steps. The step's input, no state (R33). -/
  rx : Option Datagram
  /-- The byte cursor `pos` (10_state.md R23). -/
  pos : BitVec 10
  /-- The DataFrame registers; `none` while they hold no value (10_state.md R21). -/
  frame : Option FrameRegs
  /-- The triple registers of the frame as a list (10_state.md R22); `none` while they hold no value. -/
  triples : Option (List Triple)
  /-- The pixel cursor `i` (10_state.md R23). -/
  i : U16
  /-- The events issued so far by the step in progress (42_datagram_step.md R152). -/
  events : List Event
  deriving DecidableEq, Repr

/-- MODEL: the environment of the run, which R33 keeps out of the block's state: what the step function (00_scope.md R12)
takes and gives besides `Config` and `State`. The host's step takes and gives one state and nothing else, so it stands
beside the block (log entry 1, DESIGN CHOICE, safe). -/
structure Surroundings where
  /-- The device's scripted answers not yet drawn in this step (R153; log entry 5). -/
  answers : List Answer
  /-- How many free answers have been drawn (log entry 5). No statement rests on its value. -/
  draws : Nat
  /-- The stimuli the environment has still to present (log entry 1). -/
  inbox : List Input
  /-- What the ended steps showed, oldest first (log entry 1). No operation reads it; a reset that cuts a step shortens
  that step's own record (R203). -/
  log : List StepRecord
  deriving DecidableEq, Repr

/-- What the host steps: the block with its configuration, the step in progress, and the surroundings. The block's state in
the spec's sense is `State.toBlock` alone (10_state.md R20, R33). -/
structure State extends Block, InProgress, Surroundings where
  /-- The configuration registers (R24), a parameter of the step. -/
  cfg : Cfg
  deriving DecidableEq, Repr

/-- The reasons an operation stops that is run out of its place. None is reachable from `E131_DATA` or from a datagram.
`datagramOutOfBounds` and `registerUnwritten` are the spec's own stops (93_implementation_defined.md U7, U8); the other two
are the model's choice (log entry 9). All are safe. -/
inductive Fault where
  /-- An operation that reads the datagram (V1 to V6, X) runs while none is in progress: the datagram space exists only
  within the step that received it (20_memory.md R40). DESIGN CHOICE (log entry 9). Safe. -/
  | noDatagram
  /-- `DG(off, n)` with `off + n > N` (20_memory.md R41; 93_implementation_defined.md U8). Raised by V2 to V6 and X.
  Safe. -/
  | datagramOutOfBounds
  /-- A read of `F.*`, `CH[j]` or `T.*` that holds no value: "a model should make such a read a fault, not a zero"
  (10_state.md R21; 93_implementation_defined.md U7). Raised by S1 to S5. Safe. -/
  | registerUnwritten
  /-- X on a datagram whose length no accepted datagram has (not 127..638), so that `F.LEN` or `CH` has no such value
  (40_frame_decoder.md R96, 10_state.md R21). DESIGN CHOICE (log entry 9). Safe. -/
  | channelFileRange
  deriving DecidableEq, Repr

/-- The reasons the model gives no step. -/
inductive Refusal where
  /-- Raised by `exec` for an instruction that has no meaning yet. Safe. -/
  | notModelled (mnemonic : String)
  /-- The configuration is outside the legal set, for which the spec says the model gives no step (10_state.md R25, R26;
  93_implementation_defined.md U9). Raised by `E131_DATA`, by a datagram's step and, as the model's choice (log entry 7),
  by a datagram's step that a reset cuts. Safe. -/
  | illegalConfiguration
  deriving DecidableEq, Repr

/-- What an operation answers. -/
abbrev Result := Host.Outcome State Fault Refusal

/-- The state after a reset that sampled `st` (70_reset_and_hazards.md R201): `US` empty, the configuration registers at
the strap values, the transient registers without a value, the cursors 0, nothing in progress, outstanding or pending. -/
def State.resetWith (st : Straps) : State where
  us := []
  cfg := { targetUniverse := st.targetUniverse, pixelCount := st.pixelCount
           seqWindow := Config.seqWindow, devErrAbort := Config.devErrAbort }
  rx := none
  pos := 0
  frame := none
  triples := none
  i := 0
  events := []
  answers := []
  draws := 0
  inbox := []
  log := []

/-- The machine right after reset (R201), with the straps of log entry 3 (DESIGN CHOICE: the spec gives no default). -/
def State.reset : State :=
  State.resetWith { targetUniverse := Config.defaultTarget, pixelCount := Config.defaultPixels }

end Sys2Proof.Machine
end

