-- ==== Sys2Proof/Machine/Flags.lean ====
section
/-! DEFINITION. The block has no status flags, condition codes or sticky error bits (10_state.md R31). What stands in
their place is here: the codes, severities and info words of the event port (60_exceptions.md R171). -/

namespace Sys2Proof.Machine

/-- The two errors that end a step (60_exceptions.md R177), with the info each records: `MalformedPacketError` with its
reason (R172), `InsufficientChannelDataError` with the available and the required channel counts (R175). -/
inductive Raised where
  | malformed (r : Malformed) (info : U16)
  | insufficient (have_ need : Nat)
  deriving DecidableEq, Repr

/-- The layer tag as a number (60_exceptions.md R171): 1 root, 2 framing, 3 dmp. -/
def layerTag : Layer → U16
  | .root => 1
  | .framing => 2
  | .dmp => 3

/-- `min(N, 0xffff)` (60_exceptions.md R171). -/
def lengthInfo (n : Nat) : U16 := BitVec.ofNat 16 (min n 0xffff)

/-- The info word a malformed datagram `D` is reported with (60_exceptions.md R171). -/
def malformedInfo (D : Datagram) : Malformed → U16
  | .truncated => lengthInfo D.length
  | .wrongVector l => layerTag l
  | .lengthMismatch => lengthInfo D.length
  | .badStartCode => BitVec.ofNat 16 (fieldOf D wire.startCode)

/-- The event code of each reason of `MalformedPacketError` (60_exceptions.md R171). -/
def malformedCode : Malformed → BitVec 4
  | .truncated => 0x1#4
  | .wrongVector _ => 0x2#4
  | .lengthMismatch => 0x3#4
  | .badStartCode => 0x4#4

/-- Code of `DeviceError` (60_exceptions.md R171). -/
def deviceErrorCode : BitVec 4 := 0x6#4

/-- The report of an error that ends a step (60_exceptions.md R171): malformed at low severity, insufficient at elevated
severity with `F.LEN` as info. -/
def Raised.report : Raised → Report
  | .malformed r info => { code := malformedCode r, sev := 0#1, info := info }
  | .insufficient have_ _ => { code := 0x5#4, sev := 1#1, info := BitVec.ofNat 16 have_ }

/-- The outcome that matches an error that ends a step (60_exceptions.md R177; 42_datagram_step.md R155). -/
def Raised.verdict : Raised → Verdict
  | .malformed r _ => .malformed r
  | .insufficient have_ need => .insufficient have_ need

/-- The report of a failed call (60_exceptions.md R171, R176): elevated severity, the pixel index as info. -/
def deviceReport (pix : U16) : Report :=
  { code := deviceErrorCode, sev := 1#1, info := pix }

/-- The pixel indices whose call was answered `err`, in order, read off a step's events: the argument of
`APPLIED(failed)` (42_datagram_step.md R155). -/
def failedPixels : List Event → List U16
  | [] => []
  | .call _ _ _ _ :: es => failedPixels es
  | .report r :: es => if r.code = deviceErrorCode then r.info :: failedPixels es else failedPixels es

end Sys2Proof.Machine
end

