-- ==== Sys2Proof/Machine/Operands.lean ====
section
/-! DEFINITION. What the operations read: the datagram and the transient registers, where a read of what holds no
value is a fault (10_state.md R21; 20_memory.md R41), and the arithmetic of the pipeline (41_dispatch_pipeline.md
R122, R127). -/

namespace Sys2Proof.Machine

/-- The legal set of configurations (10_state.md R25, R26; 00_scope.md R7): target 1..63999, at least one pixel, window
1..254. -/
def Cfg.legal (c : Cfg) : Bool :=
  wire.univMin ≤ c.targetUniverse.toNat && c.targetUniverse.toNat ≤ wire.univMax &&
    1 ≤ c.pixelCount.toNat && 1 ≤ c.seqWindow.toNat && c.seqWindow.toNat ≤ 254

/-- Run `k` on the datagram in progress. -/
def withDatagram (s : State) (k : Datagram → Result) : Result :=
  match s.rx with
  | some D => k D
  | none => .fault .noDatagram

/-- Run `k` on `DG` of the field `f` of `D` (20_memory.md R41); out of bounds is a fault (U8). -/
def withField (D : Datagram) (f : WireField) (k : Nat → Result) : Result :=
  match dg D f.off f.width with
  | some v => k v
  | none => .fault .datagramOutOfBounds

/-- Run `k` on the DataFrame registers; holding no value is a fault (10_state.md R21; 93_implementation_defined.md
U7). -/
def withFrame (s : State) (k : FrameRegs → Result) : Result :=
  match s.frame with
  | some f => k f
  | none => .fault .registerUnwritten

/-- Run `k` on the triples of the frame; holding no value is a fault (93_implementation_defined.md U7). -/
def withTriples (s : State) (k : List Triple → Result) : Result :=
  match s.triples with
  | some ts => k ts
  | none => .fault .registerUnwritten

/-- `delta = (seq - last) mod 256`, the 8-bit subtraction with the borrow discarded (41_dispatch_pipeline.md R122). -/
def seqDelta (seq last : Byte) : Byte := seq - last

/-- The accept window (41_dispatch_pipeline.md R121): `1 <= delta <= SEQ_WINDOW`, an unsigned range test. -/
def inWindow (w delta : Byte) : Bool := 1 ≤ delta.toNat && delta.toNat ≤ w.toNat

/-- The channels the configured pixels need, `3 * PIXEL_COUNT`, computed without wrap (41_dispatch_pipeline.md R127). -/
abbrev channelsNeeded (c : Cfg) : Nat := 3 * c.pixelCount.toNat

/-- The triples of `n` pixels from pixel `k` on: pixel `i` takes channels `3i`, `3i+1`, `3i+2` (41_dispatch_pipeline.md
R124). `none` where a channel holds no value. -/
def mapPixels (ch : List Byte) : (n k : Nat) → Option (List Triple)
  | 0, _ => some []
  | n + 1, k =>
    match ch[3 * k]?, ch[3 * k + 1]?, ch[3 * k + 2]? with
    | some r, some g, some b =>
      (mapPixels ch n (k + 1)).map fun ts => { r := r, g := g, b := b, pix := BitVec.ofNat 16 k } :: ts
    | _, _, _ => none

end Sys2Proof.Machine
end

