-- ==== Sys2Proof/Machine/Ops.lean ====
section
/-! DEFINITION. The named operations over the state: the table `US`, receiving a datagram, ending a step, raising an
error, calling the device, taking a reset. -/

namespace Sys2Proof.Machine

/-! ## The UniverseState table (10_state.md R27, R30) -/

/-- `US[u]`: `none` is `absent` (UNSEEN), `some s` is `present(s)` (10_state.md R27, R28). -/
def usRead : UsTable → U16 → Option Byte
  | [], _ => none
  | c :: cs, u => if c.1 = u.toNat then some c.2 else usRead cs u

/-- `US[u] <- present(v)` at the key `k = u`, keeping the keys rising. -/
def usInsert : UsTable → Nat → Byte → UsTable
  | [], k, v => [(k, v)]
  | c :: cs, k, v =>
    if k < c.1 then (k, v) :: c :: cs
    else if k = c.1 then (k, v) :: cs
    else c :: usInsert cs k v

/-- `US[u] <- present(v)` (10_state.md R27). -/
def usWrite (us : UsTable) (u : U16) (v : Byte) : UsTable := usInsert us u.toNat v

/-- The keys of a table rise strictly, all above `lo` where one is given, all below 65536 (20_memory.md R40). -/
def usRising : Option Nat → UsTable → Bool
  | _, [] => true
  | lo, c :: cs => lo.all (· < c.1) && c.1 < 65536 && usRising (some c.1) cs

/-- The canonical form of `US`: keys strictly rising and below 65536, so that equal tables are equal data. No listed entry
equals what an unlisted one reads as, since a listed entry is always present. -/
def usWf (us : UsTable) : Bool := usRising none us

/-! ## The step's beginning and end (42_datagram_step.md R150, R151, R154) -/

/-- The byte cursor once all `n` bytes have arrived; a hardware counter saturates at 639 (10_state.md R23;
40_frame_decoder.md R99; log entry 12). -/
def posAfter (n : Nat) : BitVec 10 := BitVec.ofNat 10 (min n (wire.maxLen + 1))

/-- Present the whole datagram `D` to the idle block (42_datagram_step.md R151): a step begins with the transient
registers holding no value and no event issued. -/
def State.receive (s : State) (D : Datagram) : State :=
  { s with rx := some D, pos := posAfter D.length, frame := none, triples := none, i := 0, events := [] }

/-- `emit` (00_scope.md R11): append an event to the step's list. -/
def State.emit (s : State) (e : Event) : State :=
  { s with events := s.events ++ [e] }

/-- `exit <Outcome>` (10_state.md R23; 42_datagram_step.md R154): the step ends, the datagram is discarded, the transient
registers lose their values (10_state.md R21), and the block is ready for the next datagram. `US` and the configuration
stay as they are. -/
def State.endStep (s : State) (v : Verdict) : State :=
  { s with
    rx := none, pos := 0, frame := none, triples := none, i := 0, events := [], answers := []
    log := s.log ++ [.completed v s.events] }

/-- TAKING AN EXCEPTION: `raise E(info)` (60_exceptions.md R177): one report is appended, the step ends with the matching
outcome, nothing is saved, and `US` keeps whatever S2 wrote. Its return is no operation: the block is idle and the next
step is an ordinary one (R178). -/
def State.raise (s : State) (e : Raised) : State :=
  (s.emit (.report e.report)).endStep e.verdict

/-- Whether the step has not ended: the datagram is still in progress. -/
def State.inStep (s : State) : Bool := s.rx.isSome

/-- `rx_ready` at a step boundary (42_datagram_step.md R151; 70_reset_and_hazards.md R201): the datagram port takes a
byte unless a whole datagram is in progress. -/
def State.rxReady (s : State) : Bool := !s.inStep

/-! ## The device port (42_datagram_step.md R153) -/

/-- The device oracle of this step (00_scope.md R12): the answer to its `k`-th call. The environment's scripted answers
come first; where it has scripted none the answer is a free value (93_implementation_defined.md U3; log entry 5). -/
def State.oracle (s : State) (k : Nat) : Answer :=
  match s.answers[k]? with
  | some a => a
  | none => Config.freeAnswer (s.draws + (k - s.answers.length))

/-- The events of the forwards, in pixel order, from the step's `k`-th call on (41_dispatch_pipeline.md R125): a call for
each triple, a report after it where the answer is `err`, no retry. An `err` answer stops the later forwards only where
`abort` (`DEV_ERR_ABORT`) is set. -/
def forwardEvents (abort : Bool) (dev : Nat → Answer) : List Triple → Nat → List Event
  | [], _ => []
  | t :: ts, k =>
    .call t.r t.g t.b t.pix ::
      match dev k with
      | .ok => forwardEvents abort dev ts (k + 1)
      | .err => .report (deviceReport t.pix) :: if abort then [] else forwardEvents abort dev ts (k + 1)

/-- How many calls a step's events hold. -/
def callCount : List Event → Nat
  | [] => 0
  | .call _ _ _ _ :: es => callCount es + 1
  | .report _ :: es => callCount es

/-- Issue the calls of the triples `ts` on the device port and record their events; the counter of free answers moves past
those drawn. `US` and every register stay as they are (60_exceptions.md R176). -/
def State.forward (s : State) (ts : List Triple) : State :=
  { s with
    events := s.events ++ forwardEvents s.cfg.devErrAbort s.oracle ts 0
    draws := s.draws + (callCount (forwardEvents s.cfg.devErrAbort s.oracle ts 0) - s.answers.length) }

/-! ## Reset (70_reset_and_hazards.md R200 to R203) -/

/-- Reset with the straps `st` (R201). The surroundings (stimuli still to come, records, the count of free answers) are
not the block's and stay. -/
def State.takeReset (s : State) (st : Straps) : State :=
  { State.resetWith st with inbox := s.inbox, log := s.log, draws := s.draws }

/-- The last record of a run, cut after `kept` events: what a step showed that a reset ended (R203, U11). -/
def cutLast (kept : Nat) : List StepRecord → List StepRecord
  | [] => []
  | [.completed _ es] => [.cut (es.take kept)]
  | [.cut es] => [.cut (es.take kept)]
  | r :: r' :: rs => r :: cutLast kept (r' :: rs)

end Sys2Proof.Machine
end

