-- ==== Sys2Proof/Machine/Decoder.lean ====
section
/-! DEFINITION. The Frame Decoder's operations V1 to V6 and X (40_frame_decoder.md R90 to R96). Each reads the datagram
in progress; a check that fails raises `MalformedPacketError`, one that passes changes nothing. -/

namespace Sys2Proof.Machine

/-- A check's two ways on: passed, the step goes on unchanged; failed, `MalformedPacketError(r)` is raised with the info
of R171 (60_exceptions.md R172, R177). -/
def checked (s : State) (D : Datagram) (r : Malformed) (passed : Bool) : Result :=
  if passed then .next s else .next (s.raise (.malformed r (malformedInfo D r)))

/-- `V1.MINLEN` (R90): reads `N` alone. -/
def execV1MinLen (s : State) : Result :=
  withDatagram s fun D => checked s D .truncated (minLenOk D.length)

/-- `V2.ROOTVEC` (R91): `DG(18, 4)`. -/
def execV2RootVec (s : State) : Result :=
  withDatagram s fun D => withField D wire.rootVec fun v => checked s D (.wrongVector .root) (rootVecOk v)

/-- `V3.FRAMEVEC` (R92): `DG(40, 4)`. -/
def execV3FrameVec (s : State) : Result :=
  withDatagram s fun D => withField D wire.frameVec fun v => checked s D (.wrongVector .framing) (frameVecOk v)

/-- `V4.DMPVEC` (R93): `DG(117, 1)`. -/
def execV4DmpVec (s : State) : Result :=
  withDatagram s fun D => withField D wire.dmpVec fun v => checked s D (.wrongVector .dmp) (dmpVecOk v)

/-- `V5.LENGTHS` (R94): the four declared counts against `N`. -/
def execV5Lengths (s : State) : Result :=
  withDatagram s fun D =>
    withField D wire.rootFlen fun rl =>
      withField D wire.frameFlen fun fl =>
        withField D wire.dmpFlen fun dl =>
          withField D wire.pvc fun pvc =>
            checked s D .lengthMismatch (lengthsOk rl fl dl pvc D.length)

/-- `V6.STARTCODE` (R95): `DG(125, 1)`. -/
def execV6StartCode (s : State) : Result :=
  withDatagram s fun D => withField D wire.startCode fun v => checked s D .badStartCode (startCodeOk v)

/-- `X.EXTRACT` (R96): writes `F.UNIVERSE`, `F.SEQ`, `F.LEN` and `CH`, all together. On a datagram of a length V5 lets
through it cannot fail; on another length (the operation run out of its place) it faults, by the model's choice (log entry 9). -/
def execXExtract (s : State) : Result :=
  withDatagram s fun D =>
    withField D wire.univ fun u =>
      withField D wire.seq fun q =>
        if wire.offData + wire.minChannels ≤ D.length ∧ D.length ≤ wire.maxLen then
          .next { s with
            frame := some
              { univ := BitVec.ofNat 16 u, seq := BitVec.ofNat 8 q
                len := BitVec.ofNat 10 (D.length - wire.offData), ch := channelBytes D } }
        else .fault .channelFileRange

end Sys2Proof.Machine
end

