-- ==== Sys2Proof/Machine/Pipeline.lean ====
section
/-! DEFINITION. The Dispatch Pipeline's stages S1 to S5 (41_dispatch_pipeline.md R120 to R125). -/

namespace Sys2Proof.Machine

/-- `S1.UFILTER` (R120): a frame for another universe is dropped silently. -/
def execS1UFilter (s : State) : Result :=
  withFrame s fun f =>
    if f.univ = s.cfg.targetUniverse then .next s else .next (s.endStep .dropUniverse)

/-- Acceptance of a frame (R121): `US[F.UNIVERSE] <- present(F.SEQ)`. -/
def State.accept (s : State) (f : FrameRegs) : State :=
  { s with us := usWrite s.us f.univ f.seq }

/-- `S2.SEQ` (R121): the first frame ever seen, or one whose `delta` is in the window, is accepted and recorded; any other
is dropped silently and leaves `US` as it is. -/
def execS2Seq (s : State) : Result :=
  withFrame s fun f =>
    match usRead s.us f.univ with
    | none => .next (s.accept f)
    | some last =>
      if inWindow s.cfg.seqWindow (seqDelta f.seq last) then .next (s.accept f)
      else .next (s.endStep (.dropSeq (seqDelta f.seq last)))

/-- `S3.LENCHK` (R123): too few channels for the configured pixels raises `InsufficientChannelDataError`; what S2 wrote
stands. -/
def execS3LenChk (s : State) : Result :=
  withFrame s fun f =>
    if f.len.toNat < channelsNeeded s.cfg then .next (s.raise (.insufficient f.len.toNat (channelsNeeded s.cfg)))
    else .next s

/-- `S4.MAP` (R124): the triples of the configured pixels, in pixel order. A channel that holds no value is a fault
(10_state.md R21; 93_implementation_defined.md U7), which S3 rules out. -/
def execS4Map (s : State) : Result :=
  withFrame s fun f =>
    match mapPixels f.ch s.cfg.pixelCount.toNat 0 with
    | some ts => .next { s with triples := some ts, i := BitVec.ofNat 16 (s.cfg.pixelCount.toNat - 1) }
    | none => .fault .registerUnwritten

/-- `S5.FORWARD` (R125): one `applyRgb` call per configured pixel, then `APPLIED` with the pixels whose call failed.
A pixel whose `T.*` S4 has not written is a fault (93_implementation_defined.md U7), which S4 rules out. -/
def execS5Forward (s : State) : Result :=
  withTriples s fun ts =>
    if ts.length < s.cfg.pixelCount.toNat then .fault .registerUnwritten
    else
      .next ((s.forward (ts.take s.cfg.pixelCount.toNat)).endStep
        (.applied (failedPixels (forwardEvents s.cfg.devErrAbort s.oracle (ts.take s.cfg.pixelCount.toNat) 0))))

end Sys2Proof.Machine
end

