-- ==== Sys2Proof/Machine/Datagram.lean ====
section
/-! DEFINITION. `E131_DATA`, the datagram step (42_datagram_step.md R150): the twelve operations in their fixed order. -/

namespace Sys2Proof.Machine

/-- The twelve operations in the order of 30_encoding.md R70. -/
def e131Operations : List (State → Result) :=
  [execV1MinLen, execV2RootVec, execV3FrameVec, execV4DmpVec, execV5Lengths, execV6StartCode, execXExtract,
    execS1UFilter, execS2Seq, execS3LenChk, execS4Map, execS5Forward]

/-- Run operations in order, each only if none before it ended the step (20_memory.md R49 item 3). -/
def runOperations : List (State → Result) → State → Result
  | [], s => .next s
  | op :: ops, s =>
    match op s with
    | .next s' => if s'.inStep then runOperations ops s' else .next s'
    | .fault r => .fault r
    | .refused r => .refused r

/-- The step of a datagram `D` in the block's own terms: it arrives, and the twelve operations run over its bytes
(42_datagram_step.md R150). A configuration outside the legal set is refused (93_implementation_defined.md U9). -/
def runDatagram (D : Datagram) (s : State) : Result :=
  if s.cfg.legal then runOperations e131Operations (s.receive D) else .refused .illegalConfiguration

/-- `E131_DATA` (42_datagram_step.md R150): the datagram the notation `E131` with these operands means (30_encoding.md R80,
R81) goes through the step. -/
def execE131Data (univ : U16) (seq : Byte) (data : List Byte) (s : State) : Result :=
  runDatagram (encodeFrame univ seq data) s

end Sys2Proof.Machine
end

