-- ==== Sys2Proof/Machine/Dispatch.lean ====
section
/-! DEFINITION. One arm per instruction, each a direct call of its meaning. -/

namespace Sys2Proof.Machine

def exec (i : Instr) (s : State) : Host.Outcome State Fault Refusal :=
  match i with
  | .e131Data u q d => Sys2Proof.Machine.execE131Data u q d s
  | .v1MinLen => Sys2Proof.Machine.execV1MinLen s
  | .v2RootVec => Sys2Proof.Machine.execV2RootVec s
  | .v3FrameVec => Sys2Proof.Machine.execV3FrameVec s
  | .v4DmpVec => Sys2Proof.Machine.execV4DmpVec s
  | .v5Lengths => Sys2Proof.Machine.execV5Lengths s
  | .v6StartCode => Sys2Proof.Machine.execV6StartCode s
  | .xExtract => Sys2Proof.Machine.execXExtract s
  | .s1UFilter => Sys2Proof.Machine.execS1UFilter s
  | .s2Seq => Sys2Proof.Machine.execS2Seq s
  | .s3LenChk => Sys2Proof.Machine.execS3LenChk s
  | .s4Map => Sys2Proof.Machine.execS4Map s
  | .s5Forward => Sys2Proof.Machine.execS5Forward s

end Sys2Proof.Machine
end

