-- ==== Sys2Proof/Machine/Run.lean ====
section
/-! DEFINITION. Taking the next stimulus: a datagram is decoded and its instruction run, a reset is taken
(42_datagram_step.md R150, R151; 70_reset_and_hazards.md R200 to R203). -/

namespace Sys2Proof.Machine

/-- The datagram port hands over `D` (42_datagram_step.md R151). A well-formed datagram is an `E131_DATA` instruction and is
executed; any other goes through the same operations, which name its rejection (30_encoding.md R71, R75). -/
def runPresented (D : Datagram) (s : State) : Result :=
  match decodeInstr D with
  | .ok i => exec i s
  | .error _ => runDatagram D s

/-- The state in which the stimulus at the head of the inbox is taken: the rest of the inbox remains, and the device's
scripted answers are those that came with it. -/
def State.taking (s : State) (answers : List Answer) (rest : List Input) : State :=
  { s with answers := answers, inbox := rest }

/-- What follows a step that a reset cuts after `kept` of its events (70_reset_and_hazards.md R203): the record keeps that
many, and the state is that of reset. -/
def State.cutBy (s : State) (kept : Nat) (st : Straps) : State :=
  { s with log := cutLast kept s.log }.takeReset st

/-- One step of the run. With nothing presented the block is idle and nothing changes (60_exceptions.md R189; log
entry 2). A reset that cuts a step comes after that step: where the configuration is illegal and the step is therefore
refused (93_implementation_defined.md U9), the cut is refused with it and the reset is not taken, although R203 gives
the state of R201; the spec does not say which of the two holds. DESIGN CHOICE (log entry 7), safe. A reset that cuts no
step is taken under any configuration. -/
def runInput (s : State) : Result :=
  match s.inbox with
  | [] => .next s
  | .datagram D answers :: rest => runPresented D (s.taking answers rest)
  | .reset st :: rest => .next ((s.taking s.answers rest).takeReset st)
  | .cutByReset D answers kept st :: rest =>
    match runPresented D (s.taking answers rest) with
    | .next t => .next (t.cutBy kept st)
    | .fault r => .fault r
    | .refused r => .refused r

end Sys2Proof.Machine
end

