-- ==== Sys2Proof/Machine/Step.lean ====
section
/-! DEFINITION. The step of the machine: one stimulus (42_datagram_step.md R150), and how the host places a word. -/

namespace Sys2Proof.Machine

/-- One step: the next stimulus is taken and its whole step runs (20_memory.md R45: a step is atomic). -/
def step (s : State) : Host.Outcome State Fault Refusal :=
  runInput s

/-- `s` with the datagram whose bits are `w` (numbered as spec/opcode_table.json numbers them) presented next on the
datagram port, before whatever the inbox holds. The block loads no program: presenting a datagram is all it takes for
the very next step to run it (log entry 2). -/
def State.withFetchWord (s : State) (nbits w : Nat) : State :=
  { s with inbox := .datagram (tableDatagram nbits w) [] :: s.inbox }

end Sys2Proof.Machine
end

