-- ==== Sys2Proof/Safety.lean ====
section
/-! DEFINITION. The invariants of a run, in the terms claims use. -/

namespace Sys2Proof.Machine

/-- Between steps nothing is in progress, outstanding or pending and the transient registers hold no value
(10_state.md R21, R23, R34; 20_memory.md R49 item 2). -/
def State.idle (s : State) : Prop :=
  s.rx = none ∧ s.frame = none ∧ s.triples = none ∧ s.events = [] ∧ s.answers = [] ∧ s.pos = 0 ∧ s.i = 0

/-- 10_state.md R29: `US[u]` is absent for every universe but the configured one. -/
def State.onlyTarget (s : State) : Prop :=
  ∀ u : U16, u ≠ s.cfg.targetUniverse → usRead s.us u = none

/-- What holds at every step boundary: the table `US` is in its canonical form, only the target universe is tracked, and
the block is idle. -/
def State.Inv (s : State) : Prop :=
  usWf s.us = true ∧ s.onlyTarget ∧ s.idle

end Sys2Proof.Machine
end

