-- ==== Sys2Proof/Safety/Reference.lean ====
section
/-! DEFINITION. The block as the two functions the spec writes it as, over a table that is a function and a device that
is any oracle: `dispatch` (41_dispatch_pipeline.md R126) and `step` (42_datagram_step.md R150). Written from those two
rules and R122, R124, R125, R171 on their own, with no operation of the machine, so that claims can compare the two. -/

namespace Sys2Proof.Reference

open Sys2Proof.Machine

/-- `US` as a function from universes to an optional last sequence number (10_state.md R27). -/
abbrev Us := U16 → Option Byte

/-- `delta` as a number: the difference modulo 256 (R122). -/
def delta (seq last : Byte) : Nat := (seq.toNat + 256 - last.toNat) % 256

/-- The call for pixel `i` (R124, R125): channels `3i`, `3i+1`, `3i+2`. Asked only for pixels whose channels exist. -/
def callOf (data : List Byte) (i : Nat) : Event :=
  .call (data.getD (3 * i) 0) (data.getD (3 * i + 1) 0) (data.getD (3 * i + 2) 0) (BitVec.ofNat 16 i)

/-- The report of pixel `i`'s failure: code 6, elevated, the pixel index (R171). -/
def failureOf (i : Nat) : Event := .report { code := 0x6#4, sev := 1#1, info := BitVec.ofNat 16 i }

/-- The events of one pixel: its call, and its report where the answer is `err` (R125, R152). -/
def pixelEvents (data : List Byte) (dev : Nat → Answer) (i : Nat) : List Event :=
  if dev i = .err then [callOf data i, failureOf i] else [callOf data i]

/-- How many pixels are attempted: all of them, or with `DEV_ERR_ABORT` those up to the first failure (R125). -/
def attempted (abort : Bool) (dev : Nat → Answer) (pixels : Nat) : Nat :=
  if abort then
    match (List.range pixels).find? fun i => dev i = .err with
    | some i => i + 1
    | none => pixels
  else pixels

/-- The events of the forwards (R125): every attempted pixel's, in pixel order. -/
def forwards (abort : Bool) (dev : Nat → Answer) (data : List Byte) (pixels : Nat) : List Event :=
  (List.range (attempted abort dev pixels)).flatMap (pixelEvents data dev)

/-- The attempted pixels whose call was answered `err` (42_datagram_step.md R155). -/
def failures (abort : Bool) (dev : Nat → Answer) (pixels : Nat) : List U16 :=
  ((List.range (attempted abort dev pixels)).filter fun i => dev i = .err).map (BitVec.ofNat 16)

/-- The verdict of the window test (R121): the first frame ever seen, or `1 <= delta <= SEQ_WINDOW`. -/
def accepts (cfg : Cfg) (last : Option Byte) (seq : Byte) : Bool :=
  match last with
  | none => true
  | some s => 1 ≤ delta seq s && delta seq s ≤ cfg.seqWindow.toNat

/-- `US[f.universe := present(f.sequenceNumber)]` (R121, R126). -/
def recorded (us : Us) (f : DataFrame) : Us := fun u => if u = f.univ then some f.seq else us u

/-- `dispatch` (41_dispatch_pipeline.md R126). -/
def dispatch (cfg : Cfg) (us : Us) (f : DataFrame) (dev : Nat → Answer) : Us × Verdict × List Event :=
  if f.univ ≠ cfg.targetUniverse then (us, .dropUniverse, [])
  else if accepts cfg (us f.univ) f.seq then
    if f.data.length < 3 * cfg.pixelCount.toNat then
      (recorded us f, .insufficient f.data.length (3 * cfg.pixelCount.toNat),
        [.report { code := 0x5#4, sev := 1#1, info := BitVec.ofNat 16 f.data.length }])
    else
      (recorded us f, .applied (failures cfg.devErrAbort dev cfg.pixelCount.toNat),
        forwards cfg.devErrAbort dev f.data cfg.pixelCount.toNat)
  else (us, .dropSeq (BitVec.ofNat 8 (delta f.seq ((us f.univ).getD 0))), [])

/-- The report of a rejected datagram (60_exceptions.md R171). -/
def rejection (D : Datagram) : Malformed → Report
  | .truncated => { code := 0x1#4, sev := 0#1, info := BitVec.ofNat 16 (min D.length 0xffff) }
  | .wrongVector .root => { code := 0x2#4, sev := 0#1, info := 1 }
  | .wrongVector .framing => { code := 0x2#4, sev := 0#1, info := 2 }
  | .wrongVector .dmp => { code := 0x2#4, sev := 0#1, info := 3 }
  | .lengthMismatch => { code := 0x3#4, sev := 0#1, info := BitVec.ofNat 16 (min D.length 0xffff) }
  | .badStartCode => { code := 0x4#4, sev := 0#1, info := (D.getD 125 0).setWidth 16 }

/-- `step` (42_datagram_step.md R150). -/
def step (cfg : Cfg) (us : Us) (D : Datagram) (dev : Nat → Answer) : Us × Verdict × List Event :=
  match decode D with
  | .error r => (us, .malformed r, [.report (rejection D r)])
  | .ok f => dispatch cfg us f dev

end Sys2Proof.Reference

namespace Sys2Proof.Machine

/-- What a step of the machine from `s` to `t` has to show for it to be the reference's `(us, verdict, events)`: the table,
one completed record with that outcome and those events, the configuration untouched, the block idle again. -/
def State.shows (s t : State) (r : Reference.Us × Verdict × List Event) : Prop :=
  (∀ u : U16, usRead t.us u = r.1 u) ∧ t.log = s.log ++ [.completed r.2.1 r.2.2] ∧ t.cfg = s.cfg ∧ t.idle

/-- `s` with its step ended by the outcome `v` after the further events `new` (42_datagram_step.md R154): the datagram and
the transient registers are gone, one record is added, `US`, the configuration and the rest are as before. -/
def State.ended (s : State) (v : Verdict) (new : List Event) : State :=
  { us := s.us, cfg := s.cfg, rx := none, pos := 0, frame := none, triples := none, i := 0, events := [], answers := []
    draws := s.draws, inbox := s.inbox, log := s.log ++ [.completed v (s.events ++ new)] }

/-- `s` with the count of free answers at `n`: no statement rests on that count (log entry 5). -/
def State.drawing (s : State) (n : Nat) : State := { s with draws := n }

end Sys2Proof.Machine

namespace Sys2Proof

/-- The byte offsets a result can depend on (30_encoding.md R61, R70, R76): the three vectors, the sequence number, the
universe, the property value count, the start code and the channel bytes. Of the three flags-and-length fields only the
low twelve bits count (R66); see `lengthOffsets`. -/
def readOffset (k : Nat) : Bool :=
  (18 ≤ k && k ≤ 21) || (40 ≤ k && k ≤ 43) || k == 111 || (113 ≤ k && k ≤ 114) || k == 117 || 123 ≤ k

/-- The offsets of the flags-and-length fields (30_encoding.md R61). -/
def lengthOffsets : List Nat := [16, 38, 115]

/-- Two datagrams of one length that agree on everything the block reads (30_encoding.md R70, R76): they may differ in every
ignored field and in the flags nibbles. -/
def SameButIgnored (D D' : Datagram) : Prop :=
  D.length = D'.length ∧ (∀ k, readOffset k = true → D[k]? = D'[k]?) ∧
    ∀ o ∈ lengthOffsets, field D o 2 % 4096 = field D' o 2 % 4096

end Sys2Proof
end

