-- ==== Sys2Proof/WellFormed.lean ====
section
/-! DEFINITION. Which instructions are well formed (30_encoding.md R64, R81). -/

namespace Sys2Proof

/-- Well-formedness of a DataFrame's channel data: length 1..512 (10_state.md R21; 30_encoding.md R64). Universe and
sequence number take every value (R79, R96). -/
def DataFrame.WellFormed (f : DataFrame) : Bool :=
  wire.minChannels ≤ f.data.length && f.data.length ≤ wire.maxChannels

/-- Well-formedness of an instruction: `E131_DATA` carries 1..512 channel bytes; the twelve operations have no
operands, so nothing about them can be ill formed. -/
def Instr.WellFormed : Instr → Bool
  | .e131Data u q d => DataFrame.WellFormed ⟨u, q, d⟩
  | .v1MinLen => true
  | .v2RootVec => true
  | .v3FrameVec => true
  | .v4DmpVec => true
  | .v5Lengths => true
  | .v6StartCode => true
  | .xExtract => true
  | .s1UFilter => true
  | .s2Seq => true
  | .s3LenChk => true
  | .s4Map => true
  | .s5Forward => true

end Sys2Proof
end

