-- ==== Sys2Proof/Certificates/Slice0/Obligations.lean ====
section
/-! DEFINITION. The statements for the provers. Each docstring names the rule of spec/ it formalises. -/

open Sys2Proof Sys2Proof.Machine

/-! ## The wire format: decoder and encoder -/

/-- For every instruction that has bytes, at every value of its operands, decoding the bytes gives it back
(30_encoding.md section 7). -/
def Obligations.DecodeEncodeRoundTrip : Prop :=
  ∀ (i : Instr) (b : Datagram), i.WellFormed = true → encode i = some b → decodeInstr b = .ok i

/-- R82: the round trip of every DataFrame, and the converse only up to the ignored fields. -/
def Obligations.FrameRoundTripAndConverse : Prop :=
  (∀ (u : U16) (q : Byte) (d : List Byte), 1 ≤ d.length → d.length ≤ 512 →
    decode (encodeFrame u q d) = .ok { univ := u, seq := q, data := d }) ∧
  (∀ (D : Datagram) (f : DataFrame), decode D = .ok f → SameButIgnored (encodeFrame f.univ f.seq f.data) D) ∧
  (∃ (D : Datagram) (f : DataFrame), decode D = .ok f ∧ encodeFrame f.univ f.seq f.data ≠ D)

/-- R69 to R71: a datagram decodes to `E131_DATA` or to nothing; the instruction it decodes to is well formed. -/
def Obligations.DecodedInstrIsWellFormedE131 : Prop :=
  ∀ (D : Datagram) (i : Instr), decodeInstr D = .ok i →
    i.WellFormed = true ∧ ∃ (u : U16) (q : Byte) (d : List Byte), i = .e131Data u q d

/-- The four declared counts of `D` agree with its length and leave 1..512 channels (R94), read through `DG`. -/
def Sys2Proof.Claims.countsAgree (D : Datagram) : Prop :=
  ∃ rl fl dl pvc : Nat, dg D 16 2 = some rl ∧ dg D 38 2 = some fl ∧ dg D 115 2 = some dl ∧ dg D 123 2 = some pvc ∧
    rl % 4096 = D.length - 16 ∧ fl % 4096 = D.length - 38 ∧ dl % 4096 = D.length - 115 ∧ pvc = D.length - 125 ∧
    2 ≤ pvc ∧ pvc ≤ 513

open Sys2Proof.Claims in
/-- R97, R98, R173: each reason has its one cause, the first failing check in the order V1 to V6 gives it, and what passes
them all is the DataFrame of R97. -/
def Obligations.RejectionReasonsAndPriority : Prop :=
  ∀ D : Datagram,
    (decode D = .error .truncated ↔ D.length < 126) ∧
    (decode D = .error (.wrongVector .root) ↔ 126 ≤ D.length ∧ dg D 18 4 ≠ some 4) ∧
    (decode D = .error (.wrongVector .framing) ↔ 126 ≤ D.length ∧ dg D 18 4 = some 4 ∧ dg D 40 4 ≠ some 2) ∧
    (decode D = .error (.wrongVector .dmp) ↔
      126 ≤ D.length ∧ dg D 18 4 = some 4 ∧ dg D 40 4 = some 2 ∧ dg D 117 1 ≠ some 2) ∧
    (decode D = .error .lengthMismatch ↔
      126 ≤ D.length ∧ dg D 18 4 = some 4 ∧ dg D 40 4 = some 2 ∧ dg D 117 1 = some 2 ∧ ¬ countsAgree D) ∧
    (decode D = .error .badStartCode ↔
      126 ≤ D.length ∧ dg D 18 4 = some 4 ∧ dg D 40 4 = some 2 ∧ dg D 117 1 = some 2 ∧ countsAgree D ∧
        dg D 125 1 ≠ some 0) ∧
    ∀ f : DataFrame, decode D = .ok f ↔
      126 ≤ D.length ∧ dg D 18 4 = some 4 ∧ dg D 40 4 = some 2 ∧ dg D 117 1 = some 2 ∧ countsAgree D ∧
        dg D 125 1 = some 0 ∧ dg D 113 2 = some f.univ.toNat ∧ dg D 111 1 = some f.seq.toNat ∧ f.data = D.drop 126

open Sys2Proof.Claims in
/-- R99: the decoder's behaviour by length, first failing check first, and that no byte past the first 639 matters. -/
def Obligations.BehaviourByLength : Prop :=
  ∀ D : Datagram,
    (D.length ≤ 125 → decode D = .error .truncated) ∧
    (D.length = 126 ∨ 639 ≤ D.length →
      decode D =
        if dg D 18 4 ≠ some 4 then .error (.wrongVector .root)
        else if dg D 40 4 ≠ some 2 then .error (.wrongVector .framing)
        else if dg D 117 1 ≠ some 2 then .error (.wrongVector .dmp)
        else .error .lengthMismatch) ∧
    (127 ≤ D.length → D.length ≤ 638 →
      (dg D 18 4 ≠ some 4 → decode D = .error (.wrongVector .root)) ∧
      (dg D 18 4 = some 4 → dg D 40 4 ≠ some 2 → decode D = .error (.wrongVector .framing)) ∧
      (dg D 18 4 = some 4 → dg D 40 4 = some 2 → dg D 117 1 ≠ some 2 → decode D = .error (.wrongVector .dmp)) ∧
      (dg D 18 4 = some 4 → dg D 40 4 = some 2 → dg D 117 1 = some 2 →
        (¬ countsAgree D → decode D = .error .lengthMismatch) ∧
        (countsAgree D → dg D 125 1 ≠ some 0 → decode D = .error .badStartCode) ∧
        (countsAgree D → dg D 125 1 = some 0 →
          ∃ f : DataFrame, decode D = .ok f ∧ f.data.length = D.length - 126))) ∧
    (639 ≤ D.length → decode D = decode (D.take 639))

/-- R76, R66: datagrams that differ only in ignored fields and flags nibbles decode alike, and their steps end alike. -/
def Obligations.IgnoredFieldsGiveSameResult : Prop :=
  ∀ D D' : Datagram, SameButIgnored D D' →
    decode D = decode D' ∧
    ∀ (s : State) (a : List Answer) (rest : List Input),
      step { s with inbox := .datagram D a :: rest } = step { s with inbox := .datagram D' a :: rest }

/-- R67: the declared counts of an accepted datagram, their differences, and the fields of the longest and the shortest
canonical one. -/
def Obligations.DeclaredCountsOfAcceptedDatagram : Prop :=
  (∀ (D : Datagram) (f : DataFrame), decode D = .ok f →
    ∃ rl fl dl pvc : Nat,
      dg D 16 2 = some rl ∧ dg D 38 2 = some fl ∧ dg D 115 2 = some dl ∧ dg D 123 2 = some pvc ∧
      rl % 4096 + 16 = D.length ∧ fl % 4096 + 38 = D.length ∧ dl % 4096 + 115 = D.length ∧ pvc + 125 = D.length ∧
      rl % 4096 = fl % 4096 + 22 ∧ fl % 4096 = dl % 4096 + 77 ∧ dl % 4096 = pvc + 10 ∧
      f.data.length + 1 = pvc ∧ f.data.length + 126 = D.length) ∧
  (∀ (u : U16) (q : Byte) (d : List Byte), d.length = 512 →
    dg (encodeFrame u q d) 16 2 = some 0x726e ∧ dg (encodeFrame u q d) 38 2 = some 0x7258 ∧
    dg (encodeFrame u q d) 115 2 = some 0x720b ∧ dg (encodeFrame u q d) 123 2 = some 0x0201) ∧
  (∀ (u : U16) (q : Byte) (d : List Byte), d.length = 1 →
    dg (encodeFrame u q d) 16 2 = some 0x706f ∧ dg (encodeFrame u q d) 38 2 = some 0x7059 ∧
    dg (encodeFrame u q d) 115 2 = some 0x700c ∧ dg (encodeFrame u q d) 123 2 = some 0x0002)

/-- The template datagram of 95_test_vectors.md, byte for byte, but for the high byte of its three flags-and-length fields,
the last byte of its root vector and its start code, which are left open. -/
def Sys2Proof.Claims.writtenDatagram (flags rootVec start : Byte) : Datagram :=
  [0x00, 0x10, 0x00, 0x00, 0x41, 0x53, 0x43, 0x2d, 0x45, 0x31, 0x2e, 0x31, 0x37, 0x00, 0x00, 0x00,
   flags, 0x71, 0x00, 0x00, 0x00, rootVec] ++ List.replicate 16 0x00 ++
  [flags, 0x5b, 0x00, 0x00, 0x00, 0x02] ++ List.replicate 64 0x00 ++
  [0x64, 0x00, 0x00, 0x0b, 0x00, 0x00, 0x01, flags, 0x0e, 0x02, 0xa1, 0x00, 0x00, 0x00, 0x01, 0x00, 0x04, start,
   0x0a, 0x14, 0x1e]

open Sys2Proof.Claims in
/-- Words written out from the spec's encoding decode to what they stand for (95_test_vectors.md T1 rows 1, 9, 22, 24). -/
def Obligations.WrittenWordsDecode : Prop :=
  decodeInstr (writtenDatagram 0x70 0x04 0x00) = .ok (.e131Data 1 11 [10, 20, 30]) ∧
  decodeInstr (writtenDatagram 0x00 0x04 0x00) = .ok (.e131Data 1 11 [10, 20, 30]) ∧
  decodeInstr (writtenDatagram 0x70 0x08 0x00) = .error (.wrongVector .root) ∧
  decodeInstr (writtenDatagram 0x70 0x04 0xdd) = .error .badStartCode

/-! ## The Frame Decoder's operations -/

/-- R90: V1 looks at `N` alone; a short datagram is reported as truncated and the step ends, a longer one goes on with
nothing changed. -/
def Obligations.MinLenCheck : Prop :=
  ∀ (s : State) (D : Datagram), s.rx = some D →
    exec .v1MinLen s = .next
      (if D.length < 126 then
        s.ended (.malformed .truncated) [.report ⟨0x1#4, 0#1, BitVec.ofNat 16 (min D.length 0xffff)⟩]
      else s)

/-- R91, R92, R93: V2, V3 and V4 compare the vector bytes; a difference is reported with the layer's tag and the step
ends, otherwise nothing changes. -/
def Obligations.VectorChecks : Prop :=
  ∀ (s : State) (D : Datagram), s.rx = some D →
    (22 ≤ D.length → exec .v2RootVec s = .next
      (if (D.drop 18).take 4 = [0x00, 0x00, 0x00, 0x04] then s
      else s.ended (.malformed (.wrongVector .root)) [.report ⟨0x2#4, 0#1, 1⟩])) ∧
    (44 ≤ D.length → exec .v3FrameVec s = .next
      (if (D.drop 40).take 4 = [0x00, 0x00, 0x00, 0x02] then s
      else s.ended (.malformed (.wrongVector .framing)) [.report ⟨0x2#4, 0#1, 2⟩])) ∧
    (118 ≤ D.length → exec .v4DmpVec s = .next
      (if (D.drop 117).take 1 = [0x02] then s
      else s.ended (.malformed (.wrongVector .dmp)) [.report ⟨0x2#4, 0#1, 3⟩]))

/-- R94: V5 compares the four declared counts with `N` as natural numbers and asks for 1..512 channels. -/
def Obligations.LengthsCheck : Prop :=
  ∀ (s : State) (D : Datagram), s.rx = some D → 125 ≤ D.length →
    exec .v5Lengths s = .next
      (if ((D.getD 16 0).toNat * 256 + (D.getD 17 0).toNat) % 4096 = D.length - 16 ∧
          ((D.getD 38 0).toNat * 256 + (D.getD 39 0).toNat) % 4096 = D.length - 38 ∧
          ((D.getD 115 0).toNat * 256 + (D.getD 116 0).toNat) % 4096 = D.length - 115 ∧
          (D.getD 123 0).toNat * 256 + (D.getD 124 0).toNat = D.length - 125 ∧
          2 ≤ (D.getD 123 0).toNat * 256 + (D.getD 124 0).toNat ∧
          (D.getD 123 0).toNat * 256 + (D.getD 124 0).toNat ≤ 513 then s
      else s.ended (.malformed .lengthMismatch) [.report ⟨0x3#4, 0#1, BitVec.ofNat 16 (min D.length 0xffff)⟩])

/-- R95: V6 rejects every start code but 0 and reports it. -/
def Obligations.StartCodeCheck : Prop :=
  ∀ (s : State) (D : Datagram) (b : Byte), s.rx = some D → D[125]? = some b →
    exec .v6StartCode s = .next
      (if b = 0x00 then s else s.ended (.malformed .badStartCode) [.report ⟨0x4#4, 0#1, b.setWidth 16⟩])

/-- R96: X writes the four DataFrame registers from the datagram and nothing else, for every length V5 lets through. -/
def Obligations.ExtractWritesFrame : Prop :=
  ∀ (s : State) (D : Datagram), s.rx = some D → 127 ≤ D.length → D.length ≤ 638 →
    exec .xExtract s = .next { s with
      frame := some
        { univ := D.getD 113 0 ++ D.getD 114 0, seq := D.getD 111 0
          len := BitVec.ofNat 10 (D.length - 126), ch := D.drop 126 } }

/-! ## The Dispatch Pipeline's stages -/

/-- R120: S1 drops a frame for another universe silently, `US` untouched; the target's goes on with nothing changed. -/
def Obligations.UniverseFilter : Prop :=
  ∀ (s : State) (f : FrameRegs), s.frame = some f →
    exec .s1UFilter s = .next (if f.univ = s.cfg.targetUniverse then s else s.ended .dropUniverse [])

/-- R121: S2 accepts the first frame of a universe, or one whose delta is in 1..SEQ_WINDOW, and then writes that universe's
entry and nothing else; any other frame is dropped silently with its delta, `US` unchanged. -/
def Obligations.SequenceFilter : Prop :=
  ∀ (s : State) (f : FrameRegs), s.frame = some f →
    if Reference.accepts s.cfg (usRead s.us f.univ) f.seq then
      ∃ us' : UsTable, exec .s2Seq s = .next { s with us := us' } ∧
        ∀ u : U16, usRead us' u = if u = f.univ then some f.seq else usRead s.us u
    else
      ∃ last : Byte, usRead s.us f.univ = some last ∧
        exec .s2Seq s = .next (s.ended (.dropSeq (BitVec.ofNat 8 (Reference.delta f.seq last))) [])

/-- R122: `delta` is the difference modulo 256, with the rule's table for last = 10; under the window 127 the range test is
`delta != 0` and bit 7 clear. -/
def Obligations.DeltaArithmetic : Prop :=
  (∀ q s : Byte, (seqDelta q s).toNat =
    if s.toNat ≤ q.toNat then q.toNat - s.toNat else q.toNat + 256 - s.toNat) ∧
  (∀ d : Byte, inWindow 127 d = true ↔ d ≠ 0 ∧ d.getLsbD 7 = false) ∧
  (∀ w d : Byte, inWindow w d = true ↔ 1 ≤ d.toNat ∧ d.toNat ≤ w.toNat) ∧
  seqDelta 11 10 = 1 ∧ seqDelta 10 10 = 0 ∧ seqDelta 9 10 = 255 ∧ seqDelta 137 10 = 127 ∧ seqDelta 138 10 = 128

/-- R123, R127: S3 compares `F.LEN` with three times the pixel count, without wrap; too few channels are reported with
`F.LEN` and the step ends, `US` as S2 left it; enough, and nothing changes. -/
def Obligations.ChannelCountCheck : Prop :=
  ∀ (s : State) (f : FrameRegs), s.frame = some f →
    exec .s3LenChk s = .next
      (if f.len.toNat < 3 * s.cfg.pixelCount.toNat then
        s.ended (.insufficient f.len.toNat (3 * s.cfg.pixelCount.toNat)) [.report ⟨0x5#4, 1#1, f.len.setWidth 16⟩]
      else s)

/-- R124: S4 makes one triple per configured pixel, from channels `3i`, `3i+1`, `3i+2`, in pixel order, and writes only the
triple registers and the pixel cursor. -/
def Obligations.MapperBuildsTriples : Prop :=
  ∀ (s : State) (f : FrameRegs), s.frame = some f → 3 * s.cfg.pixelCount.toNat ≤ f.ch.length →
    ∃ (ts : List Triple) (k : U16), exec .s4Map s = .next { s with triples := some ts, i := k } ∧
      ts.length = s.cfg.pixelCount.toNat ∧
      ∀ j, j < s.cfg.pixelCount.toNat → ∃ r g b : Byte,
        f.ch[3 * j]? = some r ∧ f.ch[3 * j + 1]? = some g ∧ f.ch[3 * j + 2]? = some b ∧
          ts[j]? = some { r := r, g := g, b := b, pix := BitVec.ofNat 16 j }

/-- The events of pixel `k` of the triples `ts` under the oracle `dev` (R125, R152). -/
def Sys2Proof.Claims.tripleEvents (ts : List Triple) (dev : Nat → Answer) (k : Nat) : List Event :=
  match ts[k]? with
  | some x =>
    .call x.r x.g x.b x.pix :: if dev k = .err then [.report ⟨0x6#4, 1#1, x.pix⟩] else []
  | none => []

open Sys2Proof.Claims in
/-- R125: S5 calls each configured pixel's triple once, in pixel order, reports each `err` answer right after its call, goes
on (or, with `DEV_ERR_ABORT`, stops at the first), and always ends the step as `APPLIED` with the failed pixels; `US` is
not touched. -/
def Obligations.ForwardCallsEveryPixel : Prop :=
  ∀ (s : State) (ts : List Triple), s.triples = some ts → s.cfg.pixelCount.toNat ≤ ts.length →
    ∃ (d : Nat) (failed : List U16),
      exec .s5Forward s = .next ((s.ended (.applied failed)
        ((List.range (Reference.attempted s.cfg.devErrAbort s.oracle s.cfg.pixelCount.toNat)).flatMap
          (tripleEvents ts s.oracle))).drawing d) ∧
      failed = (List.range (Reference.attempted s.cfg.devErrAbort s.oracle s.cfg.pixelCount.toNat)).filterMap fun k =>
        if s.oracle k = .err then ts[k]?.map Triple.pix else none

/-! ## The datagram step -/

/-- `E131_DATA` on well-formed operands under a legal configuration is exactly `dispatch` (41_dispatch_pipeline.md section 3)
of the frame that its operands name: the table, the outcome and the events are those of `dispatch`, whatever the device
answers and under both values of `DEV_ERR_ABORT`; the configuration and the inbox are unchanged and the block is idle
again. That the operands stand for that frame is read from R150 with the round trip R82 and is the model's inference (log
entry 14, DEDUCED). -/
def Obligations.E131DataIsDispatch : Prop :=
  ∀ (s : State) (u : U16) (q : Byte) (d : List Byte), s.cfg.legal = true → 1 ≤ d.length → d.length ≤ 512 →
    ∃ t : State, exec (.e131Data u q d) s = .next t ∧ t.inbox = s.inbox ∧
      s.shows t (Reference.dispatch s.cfg (usRead s.us) { univ := u, seq := q, data := d } s.oracle)

/-- `E131_DATA` on ill-formed operands (no channel byte, or more than 512). R81 defines `encode` for 1..512 channels only:
that such operands stand for the bytes `encodeFrame` lays out for them is the model's choice (log entry 14). Those bytes
end as `length_mismatch` (R94 corner cases), with one report; `US`, the configuration and the inbox are unchanged. -/
def Obligations.E131DataIllFormedIsRejected : Prop :=
  ∀ (s : State) (u : U16) (q : Byte) (d : List Byte), s.cfg.legal = true → (d.length = 0 ∨ 512 < d.length) →
    ∃ t : State, exec (.e131Data u q d) s = .next t ∧ t.us = s.us ∧ t.cfg = s.cfg ∧ t.inbox = s.inbox ∧
      t.log = s.log ++ [.completed (.malformed .lengthMismatch)
        [.report ⟨0x3#4, 0#1, BitVec.ofNat 16 (min (126 + d.length) 0xffff)⟩]]

/-- R150: one step of the machine on any datagram under any legal configuration, table and device answers is the rule's
`step`: that table, that outcome, those events, and the next stimulus ready. -/
def Obligations.StepIsTheDatagramStep : Prop :=
  ∀ (s : State) (D : Datagram) (a : List Answer) (rest : List Input), s.cfg.legal = true →
    ∃ t : State, step { s with inbox := .datagram D a :: rest } = .next t ∧ t.inbox = rest ∧
      s.shows t (Reference.step s.cfg (usRead s.us) D { s with answers := a }.oracle)

/-- Every sequence of device answers is some script of the environment (R150, R153: any call may be answered `err`). -/
def Obligations.EveryAnswerSequenceIsPossible : Prop :=
  ∀ (s : State) (dev : Nat → Answer) (n : Nat),
    ∃ a : List Answer, ∀ k, k < n → { s with answers := a }.oracle k = dev k

/-- A step runs the instruction its datagram decodes to, with the rest of the inbox still to come and the answers that came
with the datagram (42_datagram_step.md section 1). -/
def Obligations.StepRunsDecodedInstr : Prop :=
  ∀ (s : State) (D : Datagram) (a : List Answer) (rest : List Input) (i : Instr), decodeInstr D = .ok i →
    step { s with inbox := .datagram D a :: rest } = exec i { s with answers := a, inbox := rest }

/-- Presenting a datagram (decode, then execute the instruction) is running the twelve operations in their order over its
own bytes, for every datagram, accepted or not (R70, R71, R150). It justifies the model's reading of the operands of
`E131_DATA` (log entry 14, DEDUCED): running their canonical datagram loses nothing of the one presented. -/
def Obligations.TwelveOperationsAreTheStep : Prop :=
  ∀ (D : Datagram) (s : State), runPresented D s = runDatagram D s

/-- The legal set of configurations, and that outside it `E131_DATA` and every datagram's step are refused (10_state.md
section 4; 93_implementation_defined.md U9). That a datagram's step cut by a reset is refused too, and the reset not
taken, is the model's choice (log entry 7). -/
def Obligations.IllegalConfigurationIsRefused : Prop :=
  (∀ c : Cfg, c.legal = true ↔
    1 ≤ c.targetUniverse.toNat ∧ c.targetUniverse.toNat ≤ 63999 ∧ 1 ≤ c.pixelCount.toNat ∧
      1 ≤ c.seqWindow.toNat ∧ c.seqWindow.toNat ≤ 254) ∧
  (∀ (s : State) (u : U16) (q : Byte) (d : List Byte), s.cfg.legal = false →
    exec (.e131Data u q d) s = .refused .illegalConfiguration) ∧
  (∀ (s : State) (D : Datagram) (a : List Answer) (rest : List Input), s.cfg.legal = false →
    step { s with inbox := .datagram D a :: rest } = .refused .illegalConfiguration) ∧
  (∀ (s : State) (D : Datagram) (a : List Answer) (kept : Nat) (st : Straps) (rest : List Input), s.cfg.legal = false →
    step { s with inbox := .cutByReset D a kept st :: rest } = .refused .illegalConfiguration)

/-- 42_datagram_step.md section 1 (R150 in part): the step is total and never halts: under a legal configuration every step answers a next state, and in no state
does a step fault. -/
def Obligations.StepIsTotal : Prop :=
  (∀ s : State, s.cfg.legal = true → ∃ t : State, step s = .next t) ∧
  (∀ (s : State) (r : Fault), step s ≠ .fault r)

/-- With nothing presented the block stays as it is. The model's choice (log entry 2), from 60_exceptions.md section 5: it
is idle between datagrams. -/
def Obligations.IdleStepChangesNothing : Prop :=
  ∀ s : State, s.inbox = [] → step s = .next s

/-- 20_memory.md section 6 items 1, 2: stimuli are taken in the order presented, one a step, and each step adds at most one
record, after those of the steps before it. -/
def Obligations.StimuliAreTakenInOrder : Prop :=
  ∀ s t : State, step s = .next t →
    t.inbox = s.inbox.tail ∧ ∃ new : List StepRecord, t.log = s.log ++ new ∧ new.length ≤ 1

/-! ## Reset -/

/-- 10_state.md section 9, 70_reset_and_hazards.md section 1: what reset leaves for any straps. `State.reset` is that for
the straps 1 and 1, which are the model's choice (log entry 3). -/
def Obligations.ResetLeaves : Prop :=
  (∀ st : Straps,
    (∀ u : U16, usRead (State.resetWith st).us u = none) ∧
    (State.resetWith st).cfg =
      { targetUniverse := st.targetUniverse, pixelCount := st.pixelCount, seqWindow := 127, devErrAbort := false } ∧
    (State.resetWith st).frame = none ∧ (State.resetWith st).triples = none ∧ (State.resetWith st).rx = none ∧
    (State.resetWith st).pos = 0 ∧ (State.resetWith st).i = 0 ∧ (State.resetWith st).events = [] ∧
    (State.resetWith st).rxReady = true) ∧
  State.reset = State.resetWith { targetUniverse := 1, pixelCount := 1 }

/-- 70_reset_and_hazards.md sections 1, 2: a reset stimulus, from any state, empties `US`, samples the straps and
leaves the state of reset; the stimuli still to come and the records stay. -/
def Obligations.ResetStimulus : Prop :=
  ∀ (s : State) (st : Straps) (rest : List Input),
    step { s with inbox := .reset st :: rest } =
      .next { State.resetWith st with inbox := rest, log := s.log, draws := s.draws }

/-- 70_reset_and_hazards.md section 1 (R202 in part): a frame for the target universe presented right after a reset is accepted
whatever its sequence number. -/
def Obligations.FirstFrameAfterResetIsAccepted : Prop :=
  ∀ (s : State) (st : Straps) (D : Datagram) (a : List Answer) (rest : List Input) (f : DataFrame),
    (State.resetWith st).cfg.legal = true → decode D = .ok f → f.univ = st.targetUniverse →
    ∃ t t' : State, step { s with inbox := .reset st :: .datagram D a :: rest } = .next t ∧ step t = .next t' ∧
      (∀ u : U16, usRead t.us u = none) ∧ usRead t'.us st.targetUniverse = some f.seq

/-- 70_reset_and_hazards.md section 1 (R203 as the model takes it, log entry 10): a reset that cuts a step leaves the state of
reset, and of the step's events some first ones, as many as the environment lets through. -/
def Obligations.ResetCutsStep : Prop :=
  ∀ (s : State) (D : Datagram) (a : List Answer) (kept : Nat) (st : Straps) (rest : List Input),
    s.cfg.legal = true →
    ∃ (t t' : State) (v : Verdict) (es : List Event),
      step { s with inbox := .datagram D a :: rest } = .next t ∧ t.log = s.log ++ [.completed v es] ∧
      step { s with inbox := .cutByReset D a kept st :: rest } = .next t' ∧
      t' = { State.resetWith st with inbox := rest, log := s.log ++ [.cut (es.take kept)], draws := t.draws }

/-! ## Invariants and whole-machine rules -/

/-- The invariant of step boundaries (`US` canonical, R29's one tracked universe, the block idle) is kept by every step,
from every state that has it, reachable or not. -/
def Obligations.StepKeepsInvariant : Prop :=
  ∀ s t : State, s.Inv → step s = .next t → t.Inv

/-- The state of reset, for any straps, has the invariant. -/
def Obligations.ResetHasInvariant : Prop :=
  (∀ st : Straps, (State.resetWith st).Inv) ∧ State.reset.Inv

/-- 10_state.md section 5 (R30 in part): among the twelve operations only `S2.SEQ` writes `US`. -/
def Obligations.OnlySequenceStageWritesUs : Prop :=
  ∀ (i : Instr) (s t : State), exec i s = .next t → i ≠ .s2Seq →
    (∀ (u : U16) (q : Byte) (d : List Byte), i ≠ .e131Data u q d) → t.us = s.us

/-- 10_state.md section 4 (R24 in part): no instruction writes the configuration, and no step does but one that takes a reset. -/
def Obligations.ConfigurationIsConstant : Prop :=
  (∀ (i : Instr) (s t : State), exec i s = .next t → t.cfg = s.cfg) ∧
  (∀ s t : State, step s = .next t → t.cfg ≠ s.cfg →
    ∃ (st : Straps) (rest : List Input), s.inbox = .reset st :: rest ∨
      ∃ (D : Datagram) (a : List Answer) (kept : Nat), s.inbox = .cutByReset D a kept st :: rest)

/-- 10_state.md section 5 (R28's table): the two-state machine of every universe's entry over one datagram step: the table's four rows for an accepted frame
of the target, no transition for any other datagram or universe, and never back to UNSEEN. -/
def Obligations.UniverseEntryTransitions : Prop :=
  ∀ (s t : State) (D : Datagram) (a : List Answer) (rest : List Input),
    step { s with inbox := .datagram D a :: rest } = .next t →
    (∀ f : DataFrame, decode D = .ok f → f.univ = s.cfg.targetUniverse →
      (usRead s.us f.univ = none → usRead t.us f.univ = some f.seq) ∧
      (∀ last : Byte, usRead s.us f.univ = some last →
        (1 ≤ Reference.delta f.seq last ∧ Reference.delta f.seq last ≤ s.cfg.seqWindow.toNat →
          usRead t.us f.univ = some f.seq) ∧
        (Reference.delta f.seq last = 0 ∨ s.cfg.seqWindow.toNat < Reference.delta f.seq last →
          usRead t.us f.univ = some last)) ∧
      ∀ u : U16, u ≠ f.univ → usRead t.us u = usRead s.us u) ∧
    ((∀ f : DataFrame, decode D = .ok f → f.univ ≠ s.cfg.targetUniverse) → t.us = s.us) ∧
    ∀ u : U16, usRead s.us u ≠ none → usRead t.us u ≠ none

/-- 42_datagram_step.md section 8 item 10: `US` changes in a step exactly when the outcome is INSUFFICIENT or APPLIED. -/
def Obligations.UsChangesExactlyWhenAccepted : Prop :=
  ∀ (s t : State) (D : Datagram) (a : List Answer) (rest : List Input),
    step { s with inbox := .datagram D a :: rest } = .next t →
    ((∃ u : U16, usRead t.us u ≠ usRead s.us u) ↔
      ∃ es : List Event, (∃ n m : Nat, t.log = s.log ++ [.completed (.insufficient n m) es]) ∨
        ∃ failed : List U16, t.log = s.log ++ [.completed (.applied failed) es])

/-- 42_datagram_step.md section 8 item 9: no outcome but APPLIED makes a call; APPLIED makes exactly `PIXEL_COUNT` calls
where `DEV_ERR_ABORT` is clear, and at most that many where it is set, with pixel indices 0, 1, ... in that order. -/
def Obligations.CallsOnlyWhenApplied : Prop :=
  ∀ (s t : State) (D : Datagram) (a : List Answer) (rest : List Input),
    step { s with inbox := .datagram D a :: rest } = .next t →
    ∃ (v : Verdict) (es : List Event), t.log = s.log ++ [.completed v es] ∧
      ((∀ failed : List U16, v ≠ .applied failed) → ∀ r g b p, Event.call r g b p ∉ es) ∧
      ∀ failed : List U16, v = .applied failed →
        ∃ n : Nat, n ≤ s.cfg.pixelCount.toNat ∧ (s.cfg.devErrAbort = false → n = s.cfg.pixelCount.toNat) ∧
          (es.filterMap fun e => match e with
            | .call _ _ _ p => some p
            | .report _ => none) = (List.range n).map (BitVec.ofNat 16)

/-- 42_datagram_step.md section 8 item 8, 60_exceptions.md section 1: the device's answers, scripted or free, have no effect
on `US` or on any later step's: two steps that differ in them alone leave the same table, configuration and inbox. -/
def Obligations.DeviceAnswersDoNotReachState : Prop :=
  ∀ (s t t' : State) (D : Datagram) (a a' : List Answer) (n : Nat) (rest : List Input),
    step { s with inbox := .datagram D a :: rest } = .next t →
    step { s with inbox := .datagram D a' :: rest, draws := n } = .next t' →
    t.us = t'.us ∧ t.cfg = t'.cfg ∧ t.inbox = t'.inbox ∧ t.frame = t'.frame ∧ t.triples = t'.triples ∧ t.rx = t'.rx

/-- R181: the two drops emit nothing on any port and change nothing of the block's state. -/
def Obligations.DropsAreSilent : Prop :=
  ∀ (s t : State) (D : Datagram) (a : List Answer) (rest : List Input) (v : Verdict) (es : List Event),
    step { s with inbox := .datagram D a :: rest } = .next t → t.log = s.log ++ [.completed v es] →
    (v = .dropUniverse ∨ ∃ d : Byte, v = .dropSeq d) → es = [] ∧ t.us = s.us ∧ t.cfg = s.cfg

/-- 60_exceptions.md sections 1, 2: the errors of a step do not mix, and only the codes 1 to 6 are ever emitted: a step
that raises an error shows exactly its one report, of code 1 to 4 at low severity or 5 at elevated; the reports of any
other step are code 6 at elevated severity. -/
def Obligations.ErrorsDoNotMix : Prop :=
  ∀ (s t : State) (D : Datagram) (a : List Answer) (rest : List Input) (v : Verdict) (es : List Event),
    step { s with inbox := .datagram D a :: rest } = .next t → t.log = s.log ++ [.completed v es] →
    match v with
    | .malformed _ => ∃ r : Report, es = [.report r] ∧ 1 ≤ r.code.toNat ∧ r.code.toNat ≤ 4 ∧ r.sev = 0
    | .insufficient n m => n < m ∧ es = [.report ⟨0x5#4, 1#1, BitVec.ofNat 16 n⟩]
    | .dropUniverse => es = []
    | .dropSeq _ => es = []
    | .applied failed =>
      (es.filterMap fun e => match e with
        | .call _ _ _ _ => none
        | .report r => some r) = failed.map fun p => ⟨0x6#4, 1#1, p⟩

/-- 20_memory.md section 4: the step is not idempotent. The datagram of an accepted frame, presented again at once, is a
duplicate drop with delta 0 and leaves `US` as it is, after APPLIED and after INSUFFICIENT alike. -/
def Obligations.RetransmissionIsDuplicateDrop : Prop :=
  ∀ (s t : State) (D : Datagram) (a a' : List Answer) (rest : List Input) (v : Verdict) (es : List Event),
    step { s with inbox := .datagram D a :: .datagram D a' :: rest } = .next t →
    t.log = s.log ++ [.completed v es] →
    ((∃ failed : List U16, v = .applied failed) ∨ ∃ n m : Nat, v = .insufficient n m) →
    ∃ t' : State, step t = .next t' ∧ t'.log = t.log ++ [.completed (.dropSeq 0) []] ∧ t'.us = t.us

/-- 10_state.md section 4: pixel counts from 171 up are legal, but under them no step ever forwards anything. -/
def Obligations.TooManyPixelsNeverForward : Prop :=
  ∀ (s t : State) (D : Datagram) (a : List Answer) (rest : List Input) (failed : List U16) (es : List Event),
    171 ≤ s.cfg.pixelCount.toNat → step { s with inbox := .datagram D a :: rest } = .next t →
    t.log ≠ s.log ++ [.completed (.applied failed) es]

/-! ## What is not state -/

/-- 10_state.md section 8: what the spec keeps out of the block's state has no effect on the block. From two states with the
same block, the same configuration and the same free answers to come, which may differ in the records of past errors and
calls, in the datagrams still to come and in all that a step leaves behind, the same stimulus gives the same block and
configuration and shows the same. That the records and the stimuli stand in `State` at all is the model's choice (log
entry 1). -/
def Obligations.OnlyBlockIsState : Prop :=
  ∀ (s s' t : State) (x : Input) (rest rest' : List Input),
    s'.toBlock = s.toBlock → s'.cfg = s.cfg → s'.draws = s.draws →
    step { s with inbox := x :: rest } = .next t →
    ∃ (t' : State) (shown : List StepRecord), step { s' with inbox := x :: rest' } = .next t' ∧
      t'.toBlock = t.toBlock ∧ t'.cfg = t.cfg ∧ t.log = s.log ++ shown ∧ t'.log = s'.log ++ shown

/-! ## Where an operation run out of its place stops -/

/-- Two of these stops the spec states: a read of a transient register that holds no value (10_state.md section 2;
93_implementation_defined.md U7) and `DG` past the last byte (20_memory.md section 1; U8) are faults. Two are the model's
choice (log entry 9): a read of the datagram space outside a step is `noDatagram`, and X on a datagram of 115 to 126 bytes or
of 639 and more, which no accepted datagram has, is `channelFileRange`. -/
def Obligations.OutOfPlaceReadsFault : Prop :=
  (∀ s : State, s.rx = none →
    exec .v1MinLen s = .fault .noDatagram ∧ exec .v2RootVec s = .fault .noDatagram ∧
    exec .v3FrameVec s = .fault .noDatagram ∧ exec .v4DmpVec s = .fault .noDatagram ∧
    exec .v5Lengths s = .fault .noDatagram ∧ exec .v6StartCode s = .fault .noDatagram ∧
    exec .xExtract s = .fault .noDatagram) ∧
  (∀ (s : State) (D : Datagram), s.rx = some D →
    (D.length < 22 → exec .v2RootVec s = .fault .datagramOutOfBounds) ∧
    (D.length < 44 → exec .v3FrameVec s = .fault .datagramOutOfBounds) ∧
    (D.length < 118 → exec .v4DmpVec s = .fault .datagramOutOfBounds) ∧
    (D.length < 125 → exec .v5Lengths s = .fault .datagramOutOfBounds) ∧
    (D.length < 126 → exec .v6StartCode s = .fault .datagramOutOfBounds) ∧
    (D.length < 115 → exec .xExtract s = .fault .datagramOutOfBounds) ∧
    (115 ≤ D.length → (D.length < 127 ∨ 638 < D.length) → exec .xExtract s = .fault .channelFileRange)) ∧
  (∀ s : State, s.frame = none →
    exec .s1UFilter s = .fault .registerUnwritten ∧ exec .s2Seq s = .fault .registerUnwritten ∧
    exec .s3LenChk s = .fault .registerUnwritten ∧ exec .s4Map s = .fault .registerUnwritten) ∧
  (∀ (s : State) (f : FrameRegs), s.frame = some f → f.ch.length < 3 * s.cfg.pixelCount.toNat →
    exec .s4Map s = .fault .registerUnwritten) ∧
  (∀ s : State, s.triples = none → exec .s5Forward s = .fault .registerUnwritten) ∧
  (∀ (s : State) (ts : List Triple), s.triples = some ts → ts.length < s.cfg.pixelCount.toNat →
    exec .s5Forward s = .fault .registerUnwritten)
end

