-- ==== Sys2Proof/Laws/Decode.lean ====
section
/-! SUPPORT. Facts about the wire format: reads, the encoder's fields, and what an accepted datagram has passed. -/

namespace Sys2Proof

/-! ## The read primitive (20_memory.md R41) -/

theorem dg_of_le {D : Datagram} {off n : Nat} (h : off + n ≤ D.length) : dg D off n = some (field D off n) :=
  if_pos h

theorem dg_of_lt {D : Datagram} {off n : Nat} (h : D.length < off + n) : dg D off n = none :=
  if_neg (by omega)

theorem drop_take_succ {D : Datagram} {off n : Nat} (h : off < D.length) :
    (D.drop off).take (n + 1) = D[off] :: (D.drop (off + 1)).take n := by
  rw [List.drop_eq_getElem_cons h, List.take_succ_cons]

/-- A one-byte field is its byte. -/
theorem field_one {D : Datagram} {off : Nat} (h : off < D.length) : field D off 1 = (D[off]'h).toNat := by
  rw [field, drop_take_succ h, List.take_zero]
  simp only [beNat, List.foldl, Nat.zero_mul, Nat.zero_add]

/-- A two-byte field is big-endian (20_memory.md R42). -/
theorem field_two {D : Datagram} {off : Nat} (h : off + 1 < D.length) :
    field D off 2 = (D[off]'(by omega)).toNat * 256 + (D[off + 1]'h).toNat := by
  rw [field, drop_take_succ (by omega), drop_take_succ h, List.take_zero]
  simp only [beNat, List.foldl, Nat.zero_mul, Nat.zero_add]

/-- A four-byte field is big-endian (20_memory.md R42). -/
theorem field_four {D : Datagram} {off : Nat} (h : off + 3 < D.length) :
    field D off 4 = (((D[off]'(by omega)).toNat * 256 + (D[off + 1]'(by omega)).toNat) * 256 +
      (D[off + 2]'(by omega)).toNat) * 256 + (D[off + 3]'h).toNat := by
  rw [field, drop_take_succ (by omega), drop_take_succ (by omega), drop_take_succ (by omega), drop_take_succ h,
    List.take_zero]
  simp only [beNat, List.foldl, Nat.zero_mul, Nat.zero_add]

/-! ## The checks as propositions -/

@[simp] theorem minLenOk_iff (n : Nat) : minLenOk n = true ↔ 126 ≤ n := decide_eq_true_iff

@[simp] theorem rootVecOk_iff (v : Nat) : rootVecOk v = true ↔ v = 4 := by
  simp [rootVecOk]

@[simp] theorem frameVecOk_iff (v : Nat) : frameVecOk v = true ↔ v = 2 := by
  simp [frameVecOk]

@[simp] theorem dmpVecOk_iff (v : Nat) : dmpVecOk v = true ↔ v = 2 := by
  simp [dmpVecOk]

@[simp] theorem startCodeOk_iff (v : Nat) : startCodeOk v = true ↔ v = 0 := by
  simp [startCodeOk]

/-- The bound `n ≤ MAX_LEN` follows from the count's equality and range (40_frame_decoder.md R94). -/
@[simp] theorem lengthsOk_iff (rl fl dl pvc n : Nat) :
    lengthsOk rl fl dl pvc n = true ↔
      rl % 4096 = n - 16 ∧ fl % 4096 = n - 38 ∧ dl % 4096 = n - 115 ∧ pvc = n - 125 ∧ 2 ≤ pvc ∧ pvc ≤ 513 := by
  unfold lengthsOk pvcInRange lowLength
  simp only [Bool.and_eq_true, beq_iff_eq, decide_eq_true_eq, Nat.reducePow, Nat.reduceAdd]
  omega

/-! ## What the decoder answers (40_frame_decoder.md R97) -/

theorem decode_of_short {D : Datagram} (h : D.length < 126) : decode D = .error .truncated := by
  have hmin : minLenOk D.length = false := by rw [← Bool.not_eq_true, minLenOk_iff]; omega
  rw [decode, hmin]
  rfl

/-- The decoder on a datagram that V1 lets through, with the layout of R61 in numbers. -/
theorem decode_of_long {D : Datagram} (h : 126 ≤ D.length) : decode D =
    if field D 18 4 ≠ 4 then .error (.wrongVector .root)
    else if field D 40 4 ≠ 2 then .error (.wrongVector .framing)
    else if field D 117 1 ≠ 2 then .error (.wrongVector .dmp)
    else if ¬ lengthsOk (field D 16 2) (field D 38 2) (field D 115 2) (field D 123 2) D.length = true then
      .error .lengthMismatch
    else if field D 125 1 ≠ 0 then .error .badStartCode
    else .ok (frameOf D) := by
  rw [decode, (minLenOk_iff _).2 h]
  simp only [Bool.not_true, Bool.false_eq_true, if_false, Bool.not_eq_eq_eq_not, ← Bool.not_eq_true, rootVecOk_iff,
    frameVecOk_iff, dmpVecOk_iff, startCodeOk_iff, ne_eq]

/-- Everything an accepted datagram has passed, and the DataFrame it gives. -/
theorem decode_eq_ok {D : Datagram} {f : DataFrame} (h : decode D = .ok f) :
    127 ≤ D.length ∧ D.length ≤ 638 ∧ field D 18 4 = 4 ∧ field D 40 4 = 2 ∧ field D 117 1 = 2 ∧
      lengthsOk (field D 16 2) (field D 38 2) (field D 115 2) (field D 123 2) D.length = true ∧
      field D 125 1 = 0 ∧ f = frameOf D := by
  by_cases hmin : 126 ≤ D.length
  case neg => rw [decode_of_short (by omega)] at h; cases h
  rw [decode_of_long hmin] at h
  split_ifs at h with h2 h3 h4 h5 h6
  cases h
  have hcounts := (lengthsOk_iff _ _ _ _ _).1 h5
  exact ⟨by omega, by omega, not_not.1 h2, not_not.1 h3, not_not.1 h4, h5, not_not.1 h6, rfl⟩

/-- The frame of an accepted datagram carries 1..512 channel bytes, so it is well formed (10_state.md R21). -/
theorem decode_wellFormed {D : Datagram} {f : DataFrame} (h : decode D = .ok f) : f.WellFormed = true := by
  obtain ⟨h1, h2, -, -, -, -, -, rfl⟩ := decode_eq_ok h
  simp [DataFrame.WellFormed, frameOf, channelBytes]
  omega

/-! ## Numbers as bytes (20_memory.md R42) -/

@[simp] theorem beBytes_length (n v : Nat) : (beBytes n v).length = n := by
  induction n with
  | zero => rfl
  | succ n ih => simp [beBytes, ih]

theorem foldl_beBytes (n v acc : Nat) :
    (beBytes n v).foldl (fun acc b => acc * 256 + b.toNat) acc = acc * 256 ^ n + v % 256 ^ n := by
  induction n generalizing acc with
  | zero => simp [beBytes, Nat.mod_one]
  | succ n ih =>
    have hdigit : v % 256 ^ (n + 1) = v / 256 ^ n % 256 * 256 ^ n + v % 256 ^ n := by
      rw [Nat.pow_succ, Nat.mod_mul]
      ring
    rw [beBytes, List.foldl_cons, ih, hdigit, BitVec.toNat_ofNat]
    ring

/-- The bytes of a number read back as it, as far as they go. -/
@[simp] theorem beNat_beBytes (n v : Nat) : beNat (beBytes n v) = v % 256 ^ n := by
  rw [beNat, foldl_beBytes, Nat.zero_mul, Nat.zero_add]

/-! ## Writing a field -/

@[simp] theorem overwrite_length (off : Nat) (bytes D : List Byte) : (overwrite off bytes D).length = D.length := by
  induction D generalizing off bytes with
  | nil => simp [overwrite]
  | cons x D ih =>
    cases off with
    | succ off => simp [overwrite, ih]
    | zero => cases bytes <;> simp [overwrite, ih]

/-- A byte after an overwrite: the written one inside the written range, the old one outside. -/
theorem overwrite_getElem? (off : Nat) (bytes D : List Byte) (k : Nat) :
    (overwrite off bytes D)[k]? =
      if off ≤ k ∧ k < off + bytes.length ∧ k < D.length then bytes[k - off]? else D[k]? := by
  induction D generalizing off bytes k with
  | nil => simp [overwrite]
  | cons x D ih =>
    cases off with
    | succ off =>
      cases k with
      | zero => simp [overwrite]
      | succ k =>
        simp only [overwrite, List.getElem?_cons_succ, ih, List.length_cons]
        congr 1
        · exact propext (by omega)
        · congr 1
          omega
    | zero =>
      cases bytes with
      | nil => simp [overwrite]
      | cons b bytes =>
        cases k with
        | zero => simp [overwrite]
        | succ k => simp [overwrite, ih]

/-- Two fields share no byte. -/
def WireField.Apart (f g : WireField) : Prop := f.off + f.width ≤ g.off ∨ g.off + g.width ≤ f.off

@[simp] theorem putField_length (D : Datagram) (p : WireField × Nat) : (putField D p).length = D.length :=
  overwrite_length _ _ _

/-- A field reads as the number just put there. -/
theorem field_putField_same {D : Datagram} {f : WireField} (v : Nat) (h : f.off + f.width ≤ D.length) :
    field (putField D (f, v)) f.off f.width = v % 256 ^ f.width := by
  have hbytes : ((putField D (f, v)).drop f.off).take f.width = beBytes f.width v := by
    apply List.ext_getElem?
    intro k
    rw [List.getElem?_take, List.getElem?_drop, putField, overwrite_getElem?, beBytes_length]
    by_cases hk : k < f.width
    · rw [if_pos hk, if_pos (by simp only; omega), Nat.add_sub_cancel_left]
    · rw [if_neg hk, List.getElem?_eq_none (by rw [beBytes_length]; omega)]
  rw [field, hbytes, beNat_beBytes]

/-- A field apart from the one written reads as before. -/
theorem field_putField_apart {D : Datagram} {f : WireField} {p : WireField × Nat} (h : f.Apart p.1) :
    field (putField D p) f.off f.width = field D f.off f.width := by
  have hbytes : ((putField D p).drop f.off).take f.width = (D.drop f.off).take f.width := by
    apply List.ext_getElem?
    intro k
    rw [List.getElem?_take, List.getElem?_take, List.getElem?_drop, List.getElem?_drop, putField, overwrite_getElem?,
      beBytes_length]
    by_cases hk : k < f.width
    · rw [if_pos hk, if_pos hk, if_neg (by rcases h with h | h <;> omega)]
    · rw [if_neg hk, if_neg hk]
  rw [field, field, hbytes]

@[simp] theorem foldl_putField_length (ps : List (WireField × Nat)) (D : Datagram) :
    (ps.foldl putField D).length = D.length := by
  induction ps generalizing D with
  | nil => rfl
  | cons p ps ih => rw [List.foldl_cons, ih, putField_length]

theorem field_foldl_putField_apart {ps : List (WireField × Nat)} {f : WireField} (h : ∀ p ∈ ps, f.Apart p.1)
    (D : Datagram) : field (ps.foldl putField D) f.off f.width = field D f.off f.width := by
  induction ps generalizing D with
  | nil => rfl
  | cons p ps ih =>
    rw [List.foldl_cons, ih fun q hq => h q (List.mem_cons_of_mem _ hq), field_putField_apart (h p List.mem_cons_self)]

/-- Where no two fields overlap, each reads as the number put there. -/
theorem field_foldl_putField {ps : List (WireField × Nat)} {f : WireField} {v : Nat} {D : Datagram}
    (hps : ps.Pairwise fun p q => p.1.Apart q.1) (hmem : (f, v) ∈ ps) (h : f.off + f.width ≤ D.length) :
    field (ps.foldl putField D) f.off f.width = v % 256 ^ f.width := by
  induction ps generalizing D with
  | nil => cases hmem
  | cons p ps ih =>
    rw [List.pairwise_cons] at hps
    rw [List.foldl_cons]
    rcases List.mem_cons.1 hmem with rfl | hmem
    · rw [field_foldl_putField_apart hps.1, field_putField_same v h]
    · exact ih hps.2 hmem (by rwa [putField_length])

/-! ## The canonical encoder (30_encoding.md R81) -/

/-- The layout of R61 has no overlaps. -/
theorem headerFields_apart (n : Nat) (u : U16) (q : Byte) :
    (headerFields n u q).Pairwise fun p r => p.1.Apart r.1 := by
  simp [headerFields, WireField.Apart]

@[simp] theorem encodeHeader_length (n : Nat) (u : U16) (q : Byte) : (encodeHeader n u q).length = 126 := by
  rw [encodeHeader, foldl_putField_length, List.length_replicate]

/-- `N = 126 + L` (R64, R81). -/
@[simp] theorem encodeFrame_length (u : U16) (q : Byte) (d : List Byte) :
    (encodeFrame u q d).length = 126 + d.length := by
  rw [encodeFrame, List.length_append, encodeHeader_length]

/-- A field of the canonical datagram reads as the value the encoder lists for it. -/
theorem field_encodeFrame {u : U16} {q : Byte} {d : List Byte} {f : WireField} {v : Nat}
    (hmem : (f, v) ∈ headerFields (126 + d.length) u q) (h : f.off + f.width ≤ 126) :
    field (encodeFrame u q d) f.off f.width = v % 256 ^ f.width := by
  have hheader : field (encodeFrame u q d) f.off f.width = field (encodeHeader (126 + d.length) u q) f.off f.width := by
    have hlen := encodeHeader_length (wire.offData + d.length) u q
    rw [field, field, encodeFrame, List.drop_append_of_le_length (by omega),
      List.take_append_of_le_length (by rw [List.length_drop]; omega)]
  rw [hheader, encodeHeader, field_foldl_putField (headerFields_apart _ _ _) hmem (by rwa [List.length_replicate])]

/-- The length bits of a standard flags-and-length field (R66). -/
theorem flagsLength_low {n : Nat} (h : n < 4096) : flagsLength n % 65536 % 4096 = n := by
  have hor : flagsLength n = 0x7000 + n := by
    have := Nat.two_pow_add_eq_or_of_lt (i := 12) h 7
    simpa [flagsLength] using this.symm
  rw [hor]
  omega

variable (u : U16) (q : Byte) (d : List Byte)

theorem encodeFrame_rootFlen :
    field (encodeFrame u q d) 16 2 = flagsLength (126 + d.length - 16) % 65536 :=
  field_encodeFrame (f := wire.rootFlen) (by simp [headerFields]) (by decide)

theorem encodeFrame_rootVec : field (encodeFrame u q d) 18 4 = 4 :=
  field_encodeFrame (f := wire.rootVec) (v := wire.vecRootData) (by simp [headerFields]) (by decide)

theorem encodeFrame_frameFlen :
    field (encodeFrame u q d) 38 2 = flagsLength (126 + d.length - 38) % 65536 :=
  field_encodeFrame (f := wire.frameFlen) (by simp [headerFields]) (by decide)

theorem encodeFrame_frameVec : field (encodeFrame u q d) 40 4 = 2 :=
  field_encodeFrame (f := wire.frameVec) (v := wire.vecFramingData) (by simp [headerFields]) (by decide)

theorem encodeFrame_seq : field (encodeFrame u q d) 111 1 = q.toNat :=
  (field_encodeFrame (f := wire.seq) (by simp [headerFields]) (by decide)).trans (Nat.mod_eq_of_lt q.isLt)

theorem encodeFrame_universe : field (encodeFrame u q d) 113 2 = u.toNat :=
  (field_encodeFrame (f := wire.univ) (by simp [headerFields]) (by decide)).trans (Nat.mod_eq_of_lt u.isLt)

theorem encodeFrame_dmpFlen :
    field (encodeFrame u q d) 115 2 = flagsLength (126 + d.length - 115) % 65536 :=
  field_encodeFrame (f := wire.dmpFlen) (by simp [headerFields]) (by decide)

theorem encodeFrame_dmpVec : field (encodeFrame u q d) 117 1 = 2 :=
  field_encodeFrame (f := wire.dmpVec) (v := wire.vecDmpSetProperty) (by simp [headerFields]) (by decide)

theorem encodeFrame_pvc : field (encodeFrame u q d) 123 2 = (126 + d.length - 125) % 65536 :=
  field_encodeFrame (f := wire.pvc) (by simp [headerFields]) (by decide)

theorem encodeFrame_startCode : field (encodeFrame u q d) 125 1 = 0 :=
  field_encodeFrame (f := wire.startCode) (v := wire.startCodeDmx) (by simp [headerFields]) (by decide)

theorem encodeFrame_channels : channelBytes (encodeFrame u q d) = d := by
  rw [channelBytes, encodeFrame, List.drop_append_of_le_length (by rw [encodeHeader_length]),
    List.drop_eq_nil_of_le (by rw [encodeHeader_length]), List.nil_append]

end Sys2Proof
end

