-- ==== Sys2Proof/Laws/State.lean ====
section
/-! SUPPORT. One lemma per field per update of the state, each true by unfolding, so that no proof unfolds a record
update. -/

namespace Sys2Proof.Machine

variable (s : State)

/-! ## `receive` -/

@[simp] theorem State.receive_us (D : Datagram) : (s.receive D).us = s.us := rfl
@[simp] theorem State.receive_cfg (D : Datagram) : (s.receive D).cfg = s.cfg := rfl
@[simp] theorem State.receive_rx (D : Datagram) : (s.receive D).rx = some D := rfl
@[simp] theorem State.receive_pos (D : Datagram) : (s.receive D).pos = posAfter D.length := rfl
@[simp] theorem State.receive_frame (D : Datagram) : (s.receive D).frame = none := rfl
@[simp] theorem State.receive_triples (D : Datagram) : (s.receive D).triples = none := rfl
@[simp] theorem State.receive_i (D : Datagram) : (s.receive D).i = 0 := rfl
@[simp] theorem State.receive_events (D : Datagram) : (s.receive D).events = [] := rfl
@[simp] theorem State.receive_answers (D : Datagram) : (s.receive D).answers = s.answers := rfl
@[simp] theorem State.receive_draws (D : Datagram) : (s.receive D).draws = s.draws := rfl
@[simp] theorem State.receive_inbox (D : Datagram) : (s.receive D).inbox = s.inbox := rfl
@[simp] theorem State.receive_log (D : Datagram) : (s.receive D).log = s.log := rfl

/-! ## `emit` -/

@[simp] theorem State.emit_us (e : Event) : (s.emit e).us = s.us := rfl
@[simp] theorem State.emit_cfg (e : Event) : (s.emit e).cfg = s.cfg := rfl
@[simp] theorem State.emit_rx (e : Event) : (s.emit e).rx = s.rx := rfl
@[simp] theorem State.emit_pos (e : Event) : (s.emit e).pos = s.pos := rfl
@[simp] theorem State.emit_frame (e : Event) : (s.emit e).frame = s.frame := rfl
@[simp] theorem State.emit_triples (e : Event) : (s.emit e).triples = s.triples := rfl
@[simp] theorem State.emit_i (e : Event) : (s.emit e).i = s.i := rfl
@[simp] theorem State.emit_events (e : Event) : (s.emit e).events = s.events ++ [e] := rfl
@[simp] theorem State.emit_answers (e : Event) : (s.emit e).answers = s.answers := rfl
@[simp] theorem State.emit_draws (e : Event) : (s.emit e).draws = s.draws := rfl
@[simp] theorem State.emit_inbox (e : Event) : (s.emit e).inbox = s.inbox := rfl
@[simp] theorem State.emit_log (e : Event) : (s.emit e).log = s.log := rfl

/-! ## `endStep` -/

@[simp] theorem State.endStep_us (v : Verdict) : (s.endStep v).us = s.us := rfl
@[simp] theorem State.endStep_cfg (v : Verdict) : (s.endStep v).cfg = s.cfg := rfl
@[simp] theorem State.endStep_rx (v : Verdict) : (s.endStep v).rx = none := rfl
@[simp] theorem State.endStep_pos (v : Verdict) : (s.endStep v).pos = 0 := rfl
@[simp] theorem State.endStep_frame (v : Verdict) : (s.endStep v).frame = none := rfl
@[simp] theorem State.endStep_triples (v : Verdict) : (s.endStep v).triples = none := rfl
@[simp] theorem State.endStep_i (v : Verdict) : (s.endStep v).i = 0 := rfl
@[simp] theorem State.endStep_events (v : Verdict) : (s.endStep v).events = [] := rfl
@[simp] theorem State.endStep_answers (v : Verdict) : (s.endStep v).answers = [] := rfl
@[simp] theorem State.endStep_draws (v : Verdict) : (s.endStep v).draws = s.draws := rfl
@[simp] theorem State.endStep_inbox (v : Verdict) : (s.endStep v).inbox = s.inbox := rfl
@[simp] theorem State.endStep_log (v : Verdict) : (s.endStep v).log = s.log ++ [.completed v s.events] := rfl

/-! ## `raise` -/

@[simp] theorem State.raise_us (e : Raised) : (s.raise e).us = s.us := rfl
@[simp] theorem State.raise_cfg (e : Raised) : (s.raise e).cfg = s.cfg := rfl
@[simp] theorem State.raise_rx (e : Raised) : (s.raise e).rx = none := rfl
@[simp] theorem State.raise_pos (e : Raised) : (s.raise e).pos = 0 := rfl
@[simp] theorem State.raise_frame (e : Raised) : (s.raise e).frame = none := rfl
@[simp] theorem State.raise_triples (e : Raised) : (s.raise e).triples = none := rfl
@[simp] theorem State.raise_i (e : Raised) : (s.raise e).i = 0 := rfl
@[simp] theorem State.raise_events (e : Raised) : (s.raise e).events = [] := rfl
@[simp] theorem State.raise_answers (e : Raised) : (s.raise e).answers = [] := rfl
@[simp] theorem State.raise_draws (e : Raised) : (s.raise e).draws = s.draws := rfl
@[simp] theorem State.raise_inbox (e : Raised) : (s.raise e).inbox = s.inbox := rfl
@[simp] theorem State.raise_log (e : Raised) : (s.raise e).log = s.log ++ [.completed e.verdict (s.events ++ [.report e.report])] := rfl

/-! ## `accept` -/

@[simp] theorem State.accept_us (f : FrameRegs) : (s.accept f).us = usWrite s.us f.univ f.seq := rfl
@[simp] theorem State.accept_cfg (f : FrameRegs) : (s.accept f).cfg = s.cfg := rfl
@[simp] theorem State.accept_rx (f : FrameRegs) : (s.accept f).rx = s.rx := rfl
@[simp] theorem State.accept_pos (f : FrameRegs) : (s.accept f).pos = s.pos := rfl
@[simp] theorem State.accept_frame (f : FrameRegs) : (s.accept f).frame = s.frame := rfl
@[simp] theorem State.accept_triples (f : FrameRegs) : (s.accept f).triples = s.triples := rfl
@[simp] theorem State.accept_i (f : FrameRegs) : (s.accept f).i = s.i := rfl
@[simp] theorem State.accept_events (f : FrameRegs) : (s.accept f).events = s.events := rfl
@[simp] theorem State.accept_answers (f : FrameRegs) : (s.accept f).answers = s.answers := rfl
@[simp] theorem State.accept_draws (f : FrameRegs) : (s.accept f).draws = s.draws := rfl
@[simp] theorem State.accept_inbox (f : FrameRegs) : (s.accept f).inbox = s.inbox := rfl
@[simp] theorem State.accept_log (f : FrameRegs) : (s.accept f).log = s.log := rfl

/-! ## `forward` -/

@[simp] theorem State.forward_us (ts : List Triple) : (s.forward ts).us = s.us := rfl
@[simp] theorem State.forward_cfg (ts : List Triple) : (s.forward ts).cfg = s.cfg := rfl
@[simp] theorem State.forward_rx (ts : List Triple) : (s.forward ts).rx = s.rx := rfl
@[simp] theorem State.forward_pos (ts : List Triple) : (s.forward ts).pos = s.pos := rfl
@[simp] theorem State.forward_frame (ts : List Triple) : (s.forward ts).frame = s.frame := rfl
@[simp] theorem State.forward_triples (ts : List Triple) : (s.forward ts).triples = s.triples := rfl
@[simp] theorem State.forward_i (ts : List Triple) : (s.forward ts).i = s.i := rfl
@[simp] theorem State.forward_events (ts : List Triple) : (s.forward ts).events = s.events ++ forwardEvents s.cfg.devErrAbort s.oracle ts 0 := rfl
@[simp] theorem State.forward_answers (ts : List Triple) : (s.forward ts).answers = s.answers := rfl
@[simp] theorem State.forward_draws (ts : List Triple) : (s.forward ts).draws = s.draws + (callCount (forwardEvents s.cfg.devErrAbort s.oracle ts 0) - s.answers.length) := rfl
@[simp] theorem State.forward_inbox (ts : List Triple) : (s.forward ts).inbox = s.inbox := rfl
@[simp] theorem State.forward_log (ts : List Triple) : (s.forward ts).log = s.log := rfl

/-! ## `taking` -/

@[simp] theorem State.taking_us (a : List Answer) (rest : List Input) : (s.taking a rest).us = s.us := rfl
@[simp] theorem State.taking_cfg (a : List Answer) (rest : List Input) : (s.taking a rest).cfg = s.cfg := rfl
@[simp] theorem State.taking_rx (a : List Answer) (rest : List Input) : (s.taking a rest).rx = s.rx := rfl
@[simp] theorem State.taking_pos (a : List Answer) (rest : List Input) : (s.taking a rest).pos = s.pos := rfl
@[simp] theorem State.taking_frame (a : List Answer) (rest : List Input) : (s.taking a rest).frame = s.frame := rfl
@[simp] theorem State.taking_triples (a : List Answer) (rest : List Input) : (s.taking a rest).triples = s.triples := rfl
@[simp] theorem State.taking_i (a : List Answer) (rest : List Input) : (s.taking a rest).i = s.i := rfl
@[simp] theorem State.taking_events (a : List Answer) (rest : List Input) : (s.taking a rest).events = s.events := rfl
@[simp] theorem State.taking_answers (a : List Answer) (rest : List Input) : (s.taking a rest).answers = a := rfl
@[simp] theorem State.taking_draws (a : List Answer) (rest : List Input) : (s.taking a rest).draws = s.draws := rfl
@[simp] theorem State.taking_inbox (a : List Answer) (rest : List Input) : (s.taking a rest).inbox = rest := rfl
@[simp] theorem State.taking_log (a : List Answer) (rest : List Input) : (s.taking a rest).log = s.log := rfl

/-! ## `takeReset` -/

@[simp] theorem State.takeReset_us (st : Straps) : (s.takeReset st).us = [] := rfl
@[simp] theorem State.takeReset_cfg (st : Straps) : (s.takeReset st).cfg = (State.resetWith st).cfg := rfl
@[simp] theorem State.takeReset_rx (st : Straps) : (s.takeReset st).rx = none := rfl
@[simp] theorem State.takeReset_pos (st : Straps) : (s.takeReset st).pos = 0 := rfl
@[simp] theorem State.takeReset_frame (st : Straps) : (s.takeReset st).frame = none := rfl
@[simp] theorem State.takeReset_triples (st : Straps) : (s.takeReset st).triples = none := rfl
@[simp] theorem State.takeReset_i (st : Straps) : (s.takeReset st).i = 0 := rfl
@[simp] theorem State.takeReset_events (st : Straps) : (s.takeReset st).events = [] := rfl
@[simp] theorem State.takeReset_answers (st : Straps) : (s.takeReset st).answers = [] := rfl
@[simp] theorem State.takeReset_draws (st : Straps) : (s.takeReset st).draws = s.draws := rfl
@[simp] theorem State.takeReset_inbox (st : Straps) : (s.takeReset st).inbox = s.inbox := rfl
@[simp] theorem State.takeReset_log (st : Straps) : (s.takeReset st).log = s.log := rfl

/-! ## `cutBy` -/

@[simp] theorem State.cutBy_us (k : Nat) (st : Straps) : (s.cutBy k st).us = [] := rfl
@[simp] theorem State.cutBy_cfg (k : Nat) (st : Straps) : (s.cutBy k st).cfg = (State.resetWith st).cfg := rfl
@[simp] theorem State.cutBy_rx (k : Nat) (st : Straps) : (s.cutBy k st).rx = none := rfl
@[simp] theorem State.cutBy_pos (k : Nat) (st : Straps) : (s.cutBy k st).pos = 0 := rfl
@[simp] theorem State.cutBy_frame (k : Nat) (st : Straps) : (s.cutBy k st).frame = none := rfl
@[simp] theorem State.cutBy_triples (k : Nat) (st : Straps) : (s.cutBy k st).triples = none := rfl
@[simp] theorem State.cutBy_i (k : Nat) (st : Straps) : (s.cutBy k st).i = 0 := rfl
@[simp] theorem State.cutBy_events (k : Nat) (st : Straps) : (s.cutBy k st).events = [] := rfl
@[simp] theorem State.cutBy_answers (k : Nat) (st : Straps) : (s.cutBy k st).answers = [] := rfl
@[simp] theorem State.cutBy_draws (k : Nat) (st : Straps) : (s.cutBy k st).draws = s.draws := rfl
@[simp] theorem State.cutBy_inbox (k : Nat) (st : Straps) : (s.cutBy k st).inbox = s.inbox := rfl
@[simp] theorem State.cutBy_log (k : Nat) (st : Straps) : (s.cutBy k st).log = cutLast k s.log := rfl

/-! ## Whether the step goes on -/

@[simp] theorem State.receive_inStep (D : Datagram) : (s.receive D).inStep = true := rfl
@[simp] theorem State.endStep_inStep (v : Verdict) : (s.endStep v).inStep = false := rfl
@[simp] theorem State.raise_inStep (e : Raised) : (s.raise e).inStep = false := rfl
@[simp] theorem State.accept_inStep (f : FrameRegs) : (s.accept f).inStep = s.inStep := rfl
@[simp] theorem State.accept_oracle (f : FrameRegs) : (s.accept f).oracle = s.oracle := rfl
@[simp] theorem State.receive_oracle (D : Datagram) : (s.receive D).oracle = s.oracle := rfl

/-! ## The block's state as a whole (10_state.md R20, R33) -/

@[simp] theorem State.receive_toBlock (D : Datagram) : (s.receive D).toBlock = s.toBlock := rfl
@[simp] theorem State.emit_toBlock (e : Event) : (s.emit e).toBlock = s.toBlock := rfl
@[simp] theorem State.endStep_toBlock (v : Verdict) : (s.endStep v).toBlock = s.toBlock := rfl
@[simp] theorem State.raise_toBlock (e : Raised) : (s.raise e).toBlock = s.toBlock := rfl
@[simp] theorem State.accept_toBlock (f : FrameRegs) : (s.accept f).toBlock = ⟨usWrite s.us f.univ f.seq⟩ := rfl
@[simp] theorem State.forward_toBlock (ts : List Triple) : (s.forward ts).toBlock = s.toBlock := rfl
@[simp] theorem State.taking_toBlock (a : List Answer) (r : List Input) : (s.taking a r).toBlock = s.toBlock := rfl
@[simp] theorem State.takeReset_toBlock (st : Straps) : (s.takeReset st).toBlock = ⟨[]⟩ := rfl
@[simp] theorem State.cutBy_toBlock (k : Nat) (st : Straps) : (s.cutBy k st).toBlock = ⟨[]⟩ := rfl

end Sys2Proof.Machine
end

