-- ==== Sys2Proof/Laws/Ops.lean ====
section
/-! SUPPORT. One lemma per shared operation: what each reads, where it faults, how a sequence of operations goes on, what
the mapper and the forwards produce. -/

namespace Sys2Proof.Machine

/-! ## Reads -/

theorem withDatagram_some {s : State} {D : Datagram} (h : s.rx = some D) (k : Datagram → Result) :
    withDatagram s k = k D := by
  rw [withDatagram, h]

theorem withDatagram_none {s : State} (h : s.rx = none) (k : Datagram → Result) :
    withDatagram s k = .fault .noDatagram := by
  rw [withDatagram, h]

theorem withField_of_le {D : Datagram} {f : WireField} (h : f.off + f.width ≤ D.length) (k : Nat → Result) :
    withField D f k = k (fieldOf D f) := by
  rw [withField, dg_of_le h]

theorem withField_of_lt {D : Datagram} {f : WireField} (h : D.length < f.off + f.width) (k : Nat → Result) :
    withField D f k = .fault .datagramOutOfBounds := by
  rw [withField, dg_of_lt h]

theorem withFrame_some {s : State} {f : FrameRegs} (h : s.frame = some f) (k : FrameRegs → Result) :
    withFrame s k = k f := by
  rw [withFrame, h]

theorem withFrame_none {s : State} (h : s.frame = none) (k : FrameRegs → Result) :
    withFrame s k = .fault .registerUnwritten := by
  rw [withFrame, h]

theorem withTriples_some {s : State} {ts : List Triple} (h : s.triples = some ts) (k : List Triple → Result) :
    withTriples s k = k ts := by
  rw [withTriples, h]

theorem withTriples_none {s : State} (h : s.triples = none) (k : List Triple → Result) :
    withTriples s k = .fault .registerUnwritten := by
  rw [withTriples, h]

theorem checked_pass {p : Bool} (h : p = true) (s : State) (D : Datagram) (r : Malformed) :
    checked s D r p = .next s := by
  rw [checked, if_pos h]

theorem checked_fail {p : Bool} (h : p = false) (s : State) (D : Datagram) (r : Malformed) :
    checked s D r p = .next (s.raise (.malformed r (malformedInfo D r))) := by
  rw [checked, if_neg (by simp [h])]

/-- The legal set (10_state.md R25, R26) as a proposition. -/
theorem Cfg.legal_iff (c : Cfg) : c.legal = true ↔
    (1 ≤ c.targetUniverse.toNat ∧ c.targetUniverse.toNat ≤ 63999) ∧ 1 ≤ c.pixelCount.toNat ∧
      1 ≤ c.seqWindow.toNat ∧ c.seqWindow.toNat ≤ 254 := by
  unfold Cfg.legal
  simp only [Bool.and_eq_true, decide_eq_true_eq, and_assoc]

/-! ## Sequences of operations (20_memory.md R49 item 3) -/

theorem runOperations_go {op : State → Result} {ops : List (State → Result)} {s s' : State}
    (h : op s = .next s') (hi : s'.inStep = true) : runOperations (op :: ops) s = runOperations ops s' := by
  simp only [runOperations, h, hi, if_true]

theorem runOperations_end {op : State → Result} {ops : List (State → Result)} {s s' : State}
    (h : op s = .next s') (hi : s'.inStep = false) : runOperations (op :: ops) s = .next s' := by
  simp [runOperations, h, hi]

/-! ## The mapper (41_dispatch_pipeline.md R124) -/

/-- Where enough channels hold a value the mapper answers, with one triple per pixel, each from its own three channels. -/
theorem mapPixels_some (ch : List Byte) (n k : Nat) (h : 3 * (k + n) ≤ ch.length) :
    ∃ ts, mapPixels ch n k = some ts ∧ ts.length = n ∧
      ∀ j, j < n → ∃ r g b, ch[3 * (k + j)]? = some r ∧ ch[3 * (k + j) + 1]? = some g ∧
        ch[3 * (k + j) + 2]? = some b ∧ ts[j]? = some ⟨r, g, b, BitVec.ofNat 16 (k + j)⟩ := by
  induction n generalizing k with
  | zero => exact ⟨[], rfl, rfl, fun j hj => absurd hj (Nat.not_lt_zero j)⟩
  | succ n ih =>
    obtain ⟨ts, hts, hlen, hall⟩ := ih (k + 1) (by omega)
    have h0 := List.getElem?_eq_getElem (l := ch) (i := 3 * k) (by omega)
    have h1 := List.getElem?_eq_getElem (l := ch) (i := 3 * k + 1) (by omega)
    have h2 := List.getElem?_eq_getElem (l := ch) (i := 3 * k + 2) (by omega)
    refine ⟨⟨ch[3 * k], ch[3 * k + 1], ch[3 * k + 2], BitVec.ofNat 16 k⟩ :: ts, ?_, by simp [hlen], ?_⟩
    · simp only [mapPixels, h0, h1, h2, hts, Option.map_some]
    · intro j hj
      cases j with
      | zero => exact ⟨_, _, _, h0, h1, h2, rfl⟩
      | succ j =>
        obtain ⟨r, g, b, hr, hg, hb, ht⟩ := hall j (by omega)
        rw [show k + 1 + j = k + (j + 1) by omega] at hr hg hb ht
        exact ⟨r, g, b, hr, hg, hb, by simpa using ht⟩

/-- Where a channel the pixels need holds no value the mapper has no answer (10_state.md R21). -/
theorem mapPixels_none (ch : List Byte) (n k : Nat) (hn : 0 < n) (h : ch.length < 3 * (k + n)) :
    mapPixels ch n k = none := by
  induction n generalizing k with
  | zero => omega
  | succ n ih =>
    simp only [mapPixels]
    split
    · rename_i hb
      have hb := (List.getElem?_eq_some_iff.1 hb).1
      rw [ih (k + 1) (by omega) (by omega), Option.map_none]
    · rfl

/-! ## The forwards (41_dispatch_pipeline.md R125) -/

@[simp] theorem callCount_append (es es' : List Event) : callCount (es ++ es') = callCount es + callCount es' := by
  induction es with
  | nil => simp [callCount]
  | cons e es ih => cases e <;> (simp [callCount, ih]; try omega)

/-- Where `DEV_ERR_ABORT` is clear every triple is called exactly once, whatever the device answers. -/
theorem callCount_forwardEvents (dev : Nat → Answer) (ts : List Triple) (k : Nat) :
    callCount (forwardEvents false dev ts k) = ts.length := by
  induction ts generalizing k with
  | nil => rfl
  | cons t ts ih =>
    simp only [forwardEvents, callCount, List.length_cons]
    split <;> simp [callCount, ih]

/-- The scripted answers come first, whatever the count of free answers. -/
theorem State.oracle_scripted {s : State} {k : Nat} (h : k < s.answers.length) : s.oracle k = s.answers[k] := by
  rw [State.oracle, List.getElem?_eq_getElem h]

/-! ## Records -/

/-- Cutting a run whose last record is a completed step keeps that step's first events (70_reset_and_hazards.md R203). -/
theorem cutLast_append (k : Nat) (rs : List StepRecord) (v : Verdict) (es : List Event) :
    cutLast k (rs ++ [.completed v es]) = rs ++ [.cut (es.take k)] := by
  induction rs with
  | nil => rfl
  | cons r rs ih =>
    cases rs with
    | nil => cases r <;> rfl
    | cons r' rs => simpa [cutLast] using ih

end Sys2Proof.Machine
end

