-- ==== Sys2Proof/Laws/Datagram.lean ====
section
/-! SUPPORT. What the twelve operations do to a datagram: a rejected one ends in one report, an accepted one reaches the
pipeline with its DataFrame in the registers. -/

namespace Sys2Proof.Machine

/-- The DataFrame registers X leaves for a decoded frame (40_frame_decoder.md R96). -/
def regsOf (f : DataFrame) : FrameRegs where
  univ := f.univ
  seq := f.seq
  len := BitVec.ofNat 10 f.data.length
  ch := f.data

/-- The five stages of the pipeline in their order (41_dispatch_pipeline.md R126). -/
def pipelineStages : List (State → Result) :=
  [execS1UFilter, execS2Seq, execS3LenChk, execS4Map, execS5Forward]

/-- The state in which the pipeline receives the frame of `D`. -/
def State.withFrameOf (s : State) (D : Datagram) (f : DataFrame) : State :=
  { s.receive D with frame := some (regsOf f) }

theorem runDatagram_illegal {s : State} (h : s.cfg.legal = false) (D : Datagram) :
    runDatagram D s = .refused .illegalConfiguration := by
  simp [runDatagram, h]

/-- A datagram the decoder rejects: one report, the step ends, nothing else changes (60_exceptions.md R172, R177). -/
theorem runDatagram_error {s : State} {D : Datagram} {r : Malformed} (hl : s.cfg.legal = true)
    (h : decode D = .error r) :
    runDatagram D s = .next ((s.receive D).raise (.malformed r (malformedInfo D r))) := by
  have hrx : (s.receive D).rx = some D := rfl
  have fail : ∀ r' p, p = false → r' = r →
      checked (s.receive D) D r' p = .next ((s.receive D).raise (.malformed r (malformedInfo D r))) := by
    rintro r' p hp rfl
    exact checked_fail hp _ _ _
  rw [runDatagram, if_pos hl, e131Operations]
  unfold decode at h
  by_cases h1 : minLenOk D.length = true
  case neg =>
    simp only [h1, Bool.not_false, if_true, Except.error.injEq] at h
    exact runOperations_end (by rw [execV1MinLen, withDatagram_some hrx]; exact fail _ _ (Bool.eq_false_of_not_eq_true h1) h) rfl
  have hN := (minLenOk_iff _).1 h1
  rw [runOperations_go (s' := s.receive D)
    (by rw [execV1MinLen, withDatagram_some hrx, checked_pass h1]) rfl]
  by_cases h2 : rootVecOk (fieldOf D wire.rootVec) = true
  case neg =>
    simp only [h1, h2, Bool.not_false, Bool.not_true, Bool.false_eq_true, if_true, if_false, Except.error.injEq] at h
    exact runOperations_end (by
      rw [execV2RootVec, withDatagram_some hrx, withField_of_le (by simp only; omega)]
      exact fail _ _ (Bool.eq_false_of_not_eq_true h2) h) rfl
  rw [runOperations_go (s' := s.receive D)
    (by rw [execV2RootVec, withDatagram_some hrx, withField_of_le (by simp only; omega), checked_pass h2]) rfl]
  by_cases h3 : frameVecOk (fieldOf D wire.frameVec) = true
  case neg =>
    simp only [h1, h2, h3, Bool.not_false, Bool.not_true, Bool.false_eq_true, if_true, if_false,
      Except.error.injEq] at h
    exact runOperations_end (by
      rw [execV3FrameVec, withDatagram_some hrx, withField_of_le (by simp only; omega)]
      exact fail _ _ (Bool.eq_false_of_not_eq_true h3) h) rfl
  rw [runOperations_go (s' := s.receive D)
    (by rw [execV3FrameVec, withDatagram_some hrx, withField_of_le (by simp only; omega), checked_pass h3]) rfl]
  by_cases h4 : dmpVecOk (fieldOf D wire.dmpVec) = true
  case neg =>
    simp only [h1, h2, h3, h4, Bool.not_false, Bool.not_true, Bool.false_eq_true, if_true, if_false,
      Except.error.injEq] at h
    exact runOperations_end (by
      rw [execV4DmpVec, withDatagram_some hrx, withField_of_le (by simp only; omega)]
      exact fail _ _ (Bool.eq_false_of_not_eq_true h4) h) rfl
  rw [runOperations_go (s' := s.receive D)
    (by rw [execV4DmpVec, withDatagram_some hrx, withField_of_le (by simp only; omega), checked_pass h4]) rfl]
  by_cases h5 : lengthsOk (fieldOf D wire.rootFlen) (fieldOf D wire.frameFlen) (fieldOf D wire.dmpFlen)
      (fieldOf D wire.pvc) D.length = true
  case neg =>
    simp only [h1, h2, h3, h4, h5, Bool.not_false, Bool.not_true, Bool.false_eq_true, if_true, if_false,
      Except.error.injEq] at h
    exact runOperations_end (by
      rw [execV5Lengths, withDatagram_some hrx]
      repeat rw [withField_of_le (by simp only; omega)]
      exact fail _ _ (Bool.eq_false_of_not_eq_true h5) h) rfl
  rw [runOperations_go (s' := s.receive D)
    (by rw [execV5Lengths, withDatagram_some hrx]
        repeat rw [withField_of_le (by simp only; omega)]
        exact checked_pass h5 _ _ _) rfl]
  by_cases h6 : startCodeOk (fieldOf D wire.startCode) = true
  case neg =>
    simp only [h1, h2, h3, h4, h5, h6, Bool.not_false, Bool.not_true, Bool.false_eq_true, if_true, if_false,
      Except.error.injEq] at h
    exact runOperations_end (by
      rw [execV6StartCode, withDatagram_some hrx, withField_of_le (by simp only; omega)]
      exact fail _ _ (Bool.eq_false_of_not_eq_true h6) h) rfl
  simp [h1, h2, h3, h4, h5, h6] at h

/-- A datagram the decoder accepts reaches S1 with exactly its frame (42_datagram_step.md R158 item 2). -/
theorem runDatagram_ok {s : State} {D : Datagram} {f : DataFrame} (hl : s.cfg.legal = true) (h : decode D = .ok f) :
    runDatagram D s = runOperations pipelineStages (s.withFrameOf D f) := by
  have hrx : (s.receive D).rx = some D := rfl
  obtain ⟨hlo, hhi, h2, h3, h4, h5, h6, rfl⟩ := decode_eq_ok h
  rw [runDatagram, if_pos hl, e131Operations,
    runOperations_go (s' := s.receive D)
      (by rw [execV1MinLen, withDatagram_some hrx, checked_pass ((minLenOk_iff _).2 (by omega))]) rfl,
    runOperations_go (s' := s.receive D)
      (by rw [execV2RootVec, withDatagram_some hrx, withField_of_le (by simp only; omega)]
          exact checked_pass ((rootVecOk_iff _).2 h2) _ _ _) rfl,
    runOperations_go (s' := s.receive D)
      (by rw [execV3FrameVec, withDatagram_some hrx, withField_of_le (by simp only; omega)]
          exact checked_pass ((frameVecOk_iff _).2 h3) _ _ _) rfl,
    runOperations_go (s' := s.receive D)
      (by rw [execV4DmpVec, withDatagram_some hrx, withField_of_le (by simp only; omega)]
          exact checked_pass ((dmpVecOk_iff _).2 h4) _ _ _) rfl,
    runOperations_go (s' := s.receive D)
      (by rw [execV5Lengths, withDatagram_some hrx]
          repeat rw [withField_of_le (by simp only; omega)]
          exact checked_pass h5 _ _ _) rfl,
    runOperations_go (s' := s.receive D)
      (by rw [execV6StartCode, withDatagram_some hrx, withField_of_le (by simp only; omega)]
          exact checked_pass ((startCodeOk_iff _).2 h6) _ _ _) rfl,
    runOperations_go (s' := s.withFrameOf D (frameOf D)) _ rfl]
  · rfl
  · rw [execXExtract, withDatagram_some hrx]
    repeat rw [withField_of_le (by simp only; omega)]
    rw [if_pos]
    · simp only [State.withFrameOf, regsOf, frameOf, channelBytes, List.length_drop]
    · exact ⟨hlo, hhi⟩

/-! ## The pipeline as one function of the state and the frame -/

/-- The triples of a frame's configured pixels, where the frame has enough channels (41_dispatch_pipeline.md R124). -/
def triplesOf (s : State) (f : DataFrame) : List Triple := (mapPixels f.data s.cfg.pixelCount.toNat 0).getD []

/-- What the pipeline makes of an accepted frame: the length error, or every forward and `APPLIED` (R123, R125). -/
def State.applied (s : State) (f : DataFrame) : State :=
  if f.data.length < channelsNeeded s.cfg then s.raise (.insufficient f.data.length (channelsNeeded s.cfg))
  else (s.forward (triplesOf s f)).endStep
    (.applied (failedPixels (forwardEvents s.cfg.devErrAbort s.oracle (triplesOf s f) 0)))

/-- The state a step leaves whose datagram carried the frame `f` (41_dispatch_pipeline.md R126). It depends on `f` alone,
not on the datagram's other bytes (30_encoding.md R76). -/
def State.dispatched (s : State) (f : DataFrame) : State :=
  if f.univ ≠ s.cfg.targetUniverse then (s.receive []).endStep .dropUniverse
  else
    match usRead s.us f.univ with
    | none => ((s.receive []).accept (regsOf f)).applied f
    | some last =>
      if inWindow s.cfg.seqWindow (seqDelta f.seq last) then ((s.receive []).accept (regsOf f)).applied f
      else (s.receive []).endStep (.dropSeq (seqDelta f.seq last))

/-- The stages after an acceptance. -/
theorem acceptedStages {s : State} {f : DataFrame} (D : Datagram) (h : f.data.length ≤ 512) :
    runOperations [execS3LenChk, execS4Map, execS5Forward] ((s.withFrameOf D f).accept (regsOf f)) =
      .next (((s.receive []).accept (regsOf f)).applied f) := by
  have hf : ((s.withFrameOf D f).accept (regsOf f)).frame = some (regsOf f) := rfl
  have hlen : (regsOf f).len.toNat = f.data.length := by
    simp only [regsOf, BitVec.toNat_ofNat]
    omega
  by_cases hn : f.data.length < channelsNeeded s.cfg
  case pos =>
    rw [State.applied, if_pos (by exact hn)]
    refine (runOperations_end (s' := ((s.withFrameOf D f).accept (regsOf f)).raise
      (.insufficient f.data.length (channelsNeeded s.cfg))) ?_ rfl).trans rfl
    rw [execS3LenChk, withFrame_some hf, hlen]
    exact if_pos hn
  have hn' : 3 * (0 + s.cfg.pixelCount.toNat) ≤ f.data.length := by
    unfold channelsNeeded at hn
    omega
  obtain ⟨ts, hts, htl, -⟩ := mapPixels_some f.data s.cfg.pixelCount.toNat 0 hn'
  have htr : triplesOf ((s.receive []).accept (regsOf f)) f = ts := by
    rw [triplesOf, State.accept_cfg, State.receive_cfg, hts, Option.getD_some]
  have htake : ts.take s.cfg.pixelCount.toNat = ts := by rw [← htl, List.take_length]
  rw [State.applied, if_neg (by exact hn), htr,
    runOperations_go (s' := (s.withFrameOf D f).accept (regsOf f))
      (by rw [execS3LenChk, withFrame_some hf, hlen]; exact if_neg hn) rfl,
    runOperations_go (s' := { (s.withFrameOf D f).accept (regsOf f) with
        triples := some ts, i := BitVec.ofNat 16 (s.cfg.pixelCount.toNat - 1) })
      (by rw [execS4Map, withFrame_some hf]
          rw [show mapPixels (regsOf f).ch ((s.withFrameOf D f).accept (regsOf f)).cfg.pixelCount.toNat 0 = some ts
            from hts]
          rfl) rfl,
    runOperations_end (s' := (((s.receive []).accept (regsOf f)).forward ts).endStep
        (.applied (failedPixels (forwardEvents s.cfg.devErrAbort s.oracle ts 0)))) _ rfl]
  · rfl
  · rw [execS5Forward, withTriples_some rfl, if_neg (by show ¬ ts.length < s.cfg.pixelCount.toNat; omega)]
    simp only [State.accept_cfg, State.withFrameOf, State.receive_cfg, htake]
    rfl

/-- The whole pipeline on the frame of `D`. -/
theorem pipelineStages_result {s : State} {f : DataFrame} (D : Datagram) (h : f.data.length ≤ 512) :
    runOperations pipelineStages (s.withFrameOf D f) = .next (s.dispatched f) := by
  have hf : (s.withFrameOf D f).frame = some (regsOf f) := rfl
  unfold pipelineStages State.dispatched
  by_cases ht : f.univ = s.cfg.targetUniverse
  case neg =>
    rw [if_pos ht]
    refine (runOperations_end (s' := (s.withFrameOf D f).endStep .dropUniverse) ?_ rfl).trans rfl
    rw [execS1UFilter, withFrame_some hf]
    exact if_neg ht
  rw [if_neg (not_not_intro ht),
    runOperations_go (s' := s.withFrameOf D f) (by rw [execS1UFilter, withFrame_some hf]; exact if_pos ht) rfl]
  have accepted : execS2Seq (s.withFrameOf D f) = .next ((s.withFrameOf D f).accept (regsOf f)) →
      runOperations [execS2Seq, execS3LenChk, execS4Map, execS5Forward] (s.withFrameOf D f) =
        .next (((s.receive []).accept (regsOf f)).applied f) := fun h2 => by
    rw [runOperations_go h2 rfl, acceptedStages D h]
  cases hr : usRead s.us f.univ with
  | none =>
    refine accepted ?_
    rw [execS2Seq, withFrame_some hf, show usRead (s.withFrameOf D f).us (regsOf f).univ = none from hr]
  | some last =>
    have hread : usRead (s.withFrameOf D f).us (regsOf f).univ = some last := hr
    cases hw : inWindow s.cfg.seqWindow (seqDelta f.seq last) with
    | true =>
      simp only [hw, if_true]
      refine accepted ?_
      rw [execS2Seq, withFrame_some hf, hread]
      exact if_pos hw
    | false =>
      refine (runOperations_end (s' := (s.withFrameOf D f).endStep (.dropSeq (seqDelta f.seq last))) ?_ rfl).trans ?_
      · rw [execS2Seq, withFrame_some hf, hread]
        exact if_neg (by rw [Bool.not_eq_true]; exact hw)
      · simp only [hw, Bool.false_eq_true, if_false]
        rfl

/-- One step of an accepted datagram, whole (42_datagram_step.md R150). -/
theorem runDatagram_result {s : State} {D : Datagram} {f : DataFrame} (hl : s.cfg.legal = true) (h : decode D = .ok f) :
    runDatagram D s = .next (s.dispatched f) := by
  have hw := decode_wellFormed h
  simp only [DataFrame.WellFormed, Bool.and_eq_true, decide_eq_true_eq] at hw
  rw [runDatagram_ok hl h, pipelineStages_result D hw.2]

end Sys2Proof.Machine
end

