-- ==== Sys2Proof/Laws/Forward.lean ====
section
/-! SUPPORT. What the forwards emit (41_dispatch_pipeline.md R125), pixel by pixel: the machine's recursion over the
triples against the reference's list of attempted pixels. -/

namespace Sys2Proof.Machine

/-- The first pixel either ends the attempts (an `err` answer under `DEV_ERR_ABORT`) or they go on with the next. -/
theorem attempted_succ (abort : Bool) (dev : Nat → Answer) (n : Nat) :
    Reference.attempted abort dev (n + 1) =
      if abort = true ∧ dev 0 = .err then 1 else Reference.attempted abort (fun k => dev (k + 1)) n + 1 := by
  cases abort with
  | false => simp [Reference.attempted]
  | true =>
    simp only [Reference.attempted, if_true, List.range_succ_eq_map, List.find?_cons, List.find?_map]
    by_cases h : dev 0 = .err
    · simp [h]
    · simp only [h, decide_false, and_false, if_false]
      cases hf : (List.range n).find? fun i => decide (dev (i + 1) = .err) <;> simp [hf]

theorem attempted_le (abort : Bool) (dev : Nat → Answer) (n : Nat) : Reference.attempted abort dev n ≤ n := by
  induction n generalizing dev with
  | zero => cases abort <;> simp [Reference.attempted]
  | succ n ih =>
    rw [attempted_succ]
    split
    · omega
    · exact Nat.succ_le_succ (ih _)

/-- A triple's events under the answer `a`: its call, and its report where the answer is `err`. -/
def answeredEvents (a : Answer) (t : Triple) : List Event :=
  .call t.r t.g t.b t.pix :: if a = .err then [.report (deviceReport t.pix)] else []

theorem forwardEvents_eq (abort : Bool) (dev d : Nat → Answer) (ts : List Triple) (k : Nat)
    (hd : ∀ j, dev (k + j) = d j) :
    forwardEvents abort dev ts k = (List.range (Reference.attempted abort d ts.length)).flatMap
      fun j => match ts[j]? with
        | some t => answeredEvents (d j) t
        | none => [] := by
  induction ts generalizing k d with
  | nil => cases abort <;> simp [forwardEvents, Reference.attempted]
  | cons t ts ih =>
    have ih := ih (fun j => d (j + 1)) (k + 1) (fun j => by rw [← hd]; congr 1; omega)
    have h0 := hd 0
    rw [Nat.add_zero] at h0
    rw [List.length_cons, attempted_succ]
    simp only [forwardEvents, h0]
    cases h : d 0 with
    | ok =>
      simp only [reduceCtorEq, and_false, if_false, List.range_succ_eq_map, List.flatMap_cons, List.flatMap_map, ih,
        answeredEvents, h]
      simp
    | err =>
      cases abort with
      | true => simp [answeredEvents, h]
      | false =>
        simp only [Bool.false_eq_true, false_and, if_false, List.range_succ_eq_map, List.flatMap_cons,
          List.flatMap_map, ih, answeredEvents, h]
        simp

theorem failedPixels_forwardEvents (abort : Bool) (dev d : Nat → Answer) (ts : List Triple) (k : Nat)
    (hd : ∀ j, dev (k + j) = d j) :
    failedPixels (forwardEvents abort dev ts k) = (List.range (Reference.attempted abort d ts.length)).filterMap
      fun j => if d j = .err then ts[j]?.map Triple.pix else none := by
  induction ts generalizing k d with
  | nil => cases abort <;> simp [forwardEvents, failedPixels]
  | cons t ts ih =>
    have ih := ih (fun j => d (j + 1)) (k + 1) (fun j => by rw [← hd]; congr 1; omega)
    have h0 := hd 0
    rw [Nat.add_zero] at h0
    rw [List.length_cons, attempted_succ]
    simp only [forwardEvents, h0]
    cases h : d 0 with
    | ok =>
      simp only [reduceCtorEq, and_false, if_false, List.range_succ_eq_map, List.filterMap_cons, List.filterMap_map,
        ih, h, failedPixels]
      simp
    | err =>
      cases abort with
      | true => simp [h, deviceReport, failedPixels]
      | false =>
        simp only [Bool.false_eq_true, false_and, if_false, List.range_succ_eq_map, List.filterMap_cons,
          List.filterMap_map, ih, h, failedPixels]
        simp [deviceReport]

end Sys2Proof.Machine
end

