-- ==== Sys2Proof/Laws/PerInstr.lean ====
section
/-! SUPPORT. The family `EncodedLength`, per instruction: the bytes a well-formed instruction is written as are between
127 and 638 in number (30_encoding.md R64). -/

namespace Sys2Proof.Laws.EncodedLength

/-- What the family says of an instruction. -/
def Statement (i : Instr) : Prop :=
  i.WellFormed = true → ∀ b : Datagram, encode i = some b → 127 ≤ b.length ∧ b.length ≤ 638

/-- An instruction without bytes meets the family. -/
theorem of_no_bytes {i : Instr} (h : encode i = none) : Statement i :=
  fun _ _ hb => by rw [h] at hb; cases hb

theorem e131Data (univ : U16) (seq : Byte) (data : List Byte) : Statement (.e131Data univ seq data) := by
  intro hw b hb
  simp only [Instr.WellFormed, DataFrame.WellFormed, Bool.and_eq_true, decide_eq_true_eq] at hw
  have hlen : b.length = 126 + data.length := by
    rw [← Option.some.inj hb, encodeFrame_length]
  omega

theorem v1MinLen : Statement .v1MinLen := of_no_bytes rfl
theorem v2RootVec : Statement .v2RootVec := of_no_bytes rfl
theorem v3FrameVec : Statement .v3FrameVec := of_no_bytes rfl
theorem v4DmpVec : Statement .v4DmpVec := of_no_bytes rfl
theorem v5Lengths : Statement .v5Lengths := of_no_bytes rfl
theorem v6StartCode : Statement .v6StartCode := of_no_bytes rfl
theorem xExtract : Statement .xExtract := of_no_bytes rfl
theorem s1UFilter : Statement .s1UFilter := of_no_bytes rfl
theorem s2Seq : Statement .s2Seq := of_no_bytes rfl
theorem s3LenChk : Statement .s3LenChk := of_no_bytes rfl
theorem s4Map : Statement .s4Map := of_no_bytes rfl
theorem s5Forward : Statement .s5Forward := of_no_bytes rfl

end Sys2Proof.Laws.EncodedLength
end

