-- ==== Sys2Proof/Laws/Us.lean ====
section
/-! SUPPORT. The table `US`: a read after a write, and that a write keeps the canonical form. -/

namespace Sys2Proof.Machine

theorem usRead_usInsert (us : UsTable) (k : Nat) (v : Byte) (u : U16) :
    usRead (usInsert us k v) u = if k = u.toNat then some v else usRead us u := by
  induction us with
  | nil => simp [usInsert, usRead]
  | cons c cs ih =>
    by_cases hk : k = u.toNat
    · simp only [usInsert]
      split
      · simp [usRead, hk]
      · split
        · simp [usRead, hk]
        · rw [usRead, if_neg (by omega), ih, if_pos hk]
    · simp only [usInsert, hk, if_false]
      split
      · rw [usRead, if_neg (by simpa using hk)]
      · split
        · rw [usRead, if_neg (by simpa using hk), usRead, if_neg (by omega)]
        · simp only [usRead, ih, hk, if_false]

/-- A read after a write (10_state.md R27): the written universe reads as present, every other as before. -/
@[simp] theorem usRead_usWrite (us : UsTable) (u w : U16) (v : Byte) :
    usRead (usWrite us u v) w = if w = u then some v else usRead us w := by
  rw [usWrite, usRead_usInsert]
  congr 1
  rw [BitVec.toNat_inj]
  exact propext ⟨Eq.symm, Eq.symm⟩

theorem usRising_usInsert (us : UsTable) (lo : Option Nat) (k : Nat) (v : Byte)
    (hk : k < 65536) (hlo : lo.all (· < k) = true) (h : usRising lo us = true) :
    usRising lo (usInsert us k v) = true := by
  induction us generalizing lo with
  | nil => simp [usInsert, usRising, hk, hlo]
  | cons c cs ih =>
    simp only [usRising, Bool.and_eq_true, decide_eq_true_eq] at h
    obtain ⟨⟨hc, hb⟩, hr⟩ := h
    simp only [usInsert]
    split
    · simp_all [usRising]
    · split
      · subst_vars
        simp_all [usRising]
      · simp only [usRising, Bool.and_eq_true, decide_eq_true_eq]
        exact ⟨⟨hc, hb⟩, ih _ (by simp; omega) hr⟩

/-- The empty table is in canonical form. -/
@[simp] theorem usWf_nil : usWf [] = true := rfl

/-- A write keeps the canonical form. -/
theorem usWf_usWrite (us : UsTable) (u : U16) (v : Byte) (h : usWf us = true) : usWf (usWrite us u v) = true :=
  usRising_usInsert us none u.toNat v u.isLt rfl h

/-- A reset machine's table is in canonical form. -/
theorem usWf_reset : usWf State.reset.us = true := rfl

end Sys2Proof.Machine
end

