-- ==== Sys2Proof/Tests/Slice0.lean ====
section
/-! SUPPORT. The model's own tests. Expected results are the spec's: the template and the vectors W, T of
95_test_vectors.md, named in each comment, or a hand reading of the rule cited. -/

namespace Sys2Proof.Tests

-- Each kernel evaluation would otherwise hold a thread of its own, with its stack, until the file ends.
set_option Elab.async false

open Sys2Proof.Machine

/-! ## Helpers -/

/-- The template datagram of 95_test_vectors.md, byte for byte. -/
def template : Datagram :=
  [0x00, 0x10, 0x00, 0x00, 0x41, 0x53, 0x43, 0x2d, 0x45, 0x31, 0x2e, 0x31, 0x37, 0x00, 0x00, 0x00,
   0x70, 0x71, 0x00, 0x00, 0x00, 0x04, 0x00, 0x00, 0x00, 0x00, 0x00, 0x00, 0x00, 0x00, 0x00, 0x00] ++
  [0x00, 0x00, 0x00, 0x00, 0x00, 0x00, 0x70, 0x5b, 0x00, 0x00, 0x00, 0x02, 0x00, 0x00, 0x00, 0x00,
   0x00, 0x00, 0x00, 0x00, 0x00, 0x00, 0x00, 0x00, 0x00, 0x00, 0x00, 0x00, 0x00, 0x00, 0x00, 0x00] ++
  [0x00, 0x00, 0x00, 0x00, 0x00, 0x00, 0x00, 0x00, 0x00, 0x00, 0x00, 0x00, 0x00, 0x00, 0x00, 0x00,
   0x00, 0x00, 0x00, 0x00, 0x00, 0x00, 0x00, 0x00, 0x00, 0x00, 0x00, 0x00, 0x00, 0x00, 0x00, 0x00] ++
  [0x00, 0x00, 0x00, 0x00, 0x00, 0x00, 0x00, 0x00, 0x00, 0x00, 0x00, 0x00, 0x64, 0x00, 0x00, 0x0b,
   0x00, 0x00, 0x01, 0x70, 0x0e, 0x02, 0xa1, 0x00, 0x00, 0x00, 0x01, 0x00, 0x04, 0x00, 0x0a, 0x14] ++
  [0x1e]

/-- `D` with the byte at `k` changed. -/
def patch (D : Datagram) (k : Nat) (b : Byte) : Datagram := D.set k b

/-- A block strapped to universe 1 and `px` pixels, with that table and those stimuli to come. -/
def block (px : U16) (us : UsTable) (inbox : List Input) : State :=
  { State.resetWith { targetUniverse := 1, pixelCount := px } with us := us, inbox := inbox }

/-- A block in the middle of a step on `D`, before V1. -/
def receiving (D : Datagram) : State := (block 1 [] []).receive D

/-- A block in the middle of a step, after X took the frame `u, q, d`. -/
def framed (px : U16) (us : UsTable) (u : U16) (q : Byte) (d : List Byte) : State :=
  { (block px us []).receive [] with
    frame := some { univ := u, seq := q, len := BitVec.ofNat 10 d.length, ch := d } }

/-- The three triples of T6, about to be forwarded under the answers `a`. -/
def threeTriples (a : List Answer) : State :=
  { (block 3 [] []).receive [] with answers := a, triples := some [⟨1, 2, 3, 0⟩, ⟨4, 5, 6, 1⟩, ⟨7, 8, 9, 2⟩] }

/-- The table and the records of an answer, where it is a next state. -/
def shown : Result → Option (UsTable × List StepRecord)
  | .next t => some (t.us, t.log)
  | .fault _ => none
  | .refused _ => none

/-- The DataFrame registers and the triples of an answer, where it is a next state. -/
def registers : Result → Option (Option FrameRegs × Option (List Triple))
  | .next t => some (t.frame, t.triples)
  | .fault _ => none
  | .refused _ => none

/-- A step's record. -/
def record (v : Verdict) (es : List Event) : Option (UsTable × List StepRecord) := some ([], [.completed v es])

/-! ## Well-formedness: an ill-formed term for each check -/

theorem test_no_channels_is_ill_formed : Instr.WellFormed (.e131Data 1 0 []) = false := by decide

theorem test_513_channels_are_ill_formed : Instr.WellFormed (.e131Data 1 0 (List.replicate 513 7)) = false := by
  decide +kernel

theorem test_512_channels_are_well_formed : Instr.WellFormed (.e131Data 64000 255 (List.replicate 512 7)) = true := by
  decide +kernel

/-! ## Decoding words written out from the spec (95_test_vectors.md T1) -/

/-- T1 row 1. -/
theorem test_template_decodes : decodeInstr template = .ok (.e131Data 1 11 [10, 20, 30]) := by decide +kernel

/-- R81: the encoder writes the template. -/
theorem test_encoder_writes_template : encode (.e131Data 1 11 [10, 20, 30]) = some template := by decide +kernel

/-- T1 row 1, numbered as the table numbers bits: byte `k` is bits `8k+7..8k`. -/
theorem test_table_word_decodes :
    decodeTableWord (8 * 129) (template.foldr (fun b w => w * 256 + b.toNat) 0) =
      some (.e131Data 1 11 [10, 20, 30]) := by
  decide +kernel

/-- The table gives 126 bytes; the channels its property value count declares are zeros (log entry 13). -/
theorem test_table_word_without_channels_decodes :
    decodeTableWord (8 * 126) ((template.take 126).foldr (fun b w => w * 256 + b.toNat) 0) =
      some (.e131Data 1 11 [0, 0, 0]) := by
  decide +kernel

/-- T1 rows 2, 3, 4, 20, 21: lengths. -/
theorem test_lengths_rejected :
    decode [] = .error .truncated ∧ decode (template.take 125) = .error .truncated ∧
    decode (template.take 126) = .error .lengthMismatch ∧ decode (template ++ [0x00]) = .error .lengthMismatch ∧
    decode (template.take 128) = .error .lengthMismatch := by
  decide +kernel

/-- T1 rows 9, 10, 11, 12, 13: vectors. -/
theorem test_vectors_rejected :
    decode (patch template 21 0x08) = .error (.wrongVector .root) ∧
    decode (patch (patch template 18 0x04) 21 0x00) = .error (.wrongVector .root) ∧
    decode (patch template 43 0x01) = .error (.wrongVector .framing) ∧
    decode (patch template 117 0x01) = .error (.wrongVector .dmp) ∧
    decode (patch (patch template 21 0x08) 43 0x01) = .error (.wrongVector .root) := by
  decide +kernel

/-- T1 rows 16, 17, 18, 19, 22, 23: counts and start code. -/
theorem test_counts_and_start_code_rejected :
    decode (patch template 124 0x05) = .error .lengthMismatch ∧
    decode (patch template 17 0x72) = .error .lengthMismatch ∧
    decode (patch template 39 0x5a) = .error .lengthMismatch ∧
    decode (patch template 116 0x0f) = .error .lengthMismatch ∧
    decode (patch template 125 0xdd) = .error .badStartCode ∧
    decode (patch (patch template 125 0xdd) 124 0x05) = .error .lengthMismatch := by
  decide +kernel

/-- T1 rows 24, 25, 26, 28: ignored fields and a universe outside the legal range. -/
theorem test_ignored_fields_accepted :
    decode (patch (patch (patch template 16 0x00) 38 0x00) 115 0x00) = .ok ⟨1, 11, [10, 20, 30]⟩ ∧
    decode (patch template 112 0x40) = .ok ⟨1, 11, [10, 20, 30]⟩ ∧
    decode (List.replicate 16 0xff ++ template.drop 16) = .ok ⟨1, 11, [10, 20, 30]⟩ ∧
    decode (patch (patch template 113 0xfa) 114 0x00) = .ok ⟨64000, 11, [10, 20, 30]⟩ := by
  decide +kernel

/-- T1 rows 5, 6, 7, 8: the channel counts 0, 1, 512, 513, counts consistent. -/
theorem test_channel_count_edges :
    decode (encodeFrame 1 11 []) = .error .lengthMismatch ∧
    decode (encodeFrame 1 11 [0x55]) = .ok ⟨1, 11, [0x55]⟩ ∧
    decode (encodeFrame 1 11 (List.replicate 512 7)) = .ok ⟨1, 11, List.replicate 512 7⟩ ∧
    decode (encodeFrame 1 11 (List.replicate 513 7)) = .error .lengthMismatch := by
  decide +kernel

/-- T1 row 30. -/
theorem test_unrelated_traffic : decode (List.replicate 200 0xaa) = .error (.wrongVector .root) := by decide +kernel

/-! ## The operations, one step each -/

/-- T7 row 1. -/
theorem test_v1_short : shown (exec .v1MinLen (receiving (template.take 125))) =
    record (.malformed .truncated) [.report ⟨0x1, 0, 125⟩] := by
  decide +kernel

/-- R90: 126 bytes pass. -/
theorem test_v1_long_enough : shown (exec .v1MinLen (receiving (template.take 126))) = some ([], []) := by
  decide +kernel

/-- T7 row 2. -/
theorem test_v2_wrong : shown (exec .v2RootVec (receiving (patch template 21 0x08))) =
    record (.malformed (.wrongVector .root)) [.report ⟨0x2, 0, 1⟩] := by
  decide +kernel

theorem test_v2_right : shown (exec .v2RootVec (receiving template)) = some ([], []) := by decide +kernel

/-- T7 row 3. -/
theorem test_v3_wrong : shown (exec .v3FrameVec (receiving (patch template 43 0x01))) =
    record (.malformed (.wrongVector .framing)) [.report ⟨0x2, 0, 2⟩] := by
  decide +kernel

theorem test_v3_right : shown (exec .v3FrameVec (receiving template)) = some ([], []) := by decide +kernel

/-- T7 row 4. -/
theorem test_v4_wrong : shown (exec .v4DmpVec (receiving (patch template 117 0x01))) =
    record (.malformed (.wrongVector .dmp)) [.report ⟨0x2, 0, 3⟩] := by
  decide +kernel

theorem test_v4_right : shown (exec .v4DmpVec (receiving template)) = some ([], []) := by decide +kernel

/-- T7 row 5. -/
theorem test_v5_wrong : shown (exec .v5Lengths (receiving (patch template 124 0x05))) =
    record (.malformed .lengthMismatch) [.report ⟨0x3, 0, 129⟩] := by
  decide +kernel

/-- R94: the flags nibbles are not compared. -/
theorem test_v5_right : shown (exec .v5Lengths (receiving (patch template 16 0x00))) = some ([], []) := by
  decide +kernel

/-- T7 row 6. -/
theorem test_v6_wrong : shown (exec .v6StartCode (receiving (patch template 125 0xdd))) =
    record (.malformed .badStartCode) [.report ⟨0x4, 0, 0xdd⟩] := by
  decide +kernel

theorem test_v6_right : shown (exec .v6StartCode (receiving template)) = some ([], []) := by decide +kernel

/-- R96's example. -/
theorem test_x_extracts : registers (exec .xExtract (receiving template)) =
    some (some ⟨1, 11, 3, [10, 20, 30]⟩, none) := by
  decide +kernel

/-- R21: 512 channels fit `F.LEN`. -/
theorem test_x_extracts_512 :
    (registers (exec .xExtract (receiving (encodeFrame 1 11 (List.replicate 512 7))))).map
      (fun r => r.1.map FrameRegs.len) = some (some 512) := by
  decide +kernel

/-- T3 row 4: universe 257 is not universe 1. -/
theorem test_s1_drops : shown (exec .s1UFilter (framed 1 [] 257 5 [1, 2, 3])) = record .dropUniverse [] := by decide

theorem test_s1_passes : shown (exec .s1UFilter (framed 1 [] 1 5 [1, 2, 3])) = some ([], []) := by decide

/-- T2 rows 2, 6, 8, 10, 15: accepted, and the table written. -/
theorem test_s2_accepts :
    shown (exec .s2Seq (framed 1 [] 1 200 [1])) = some ([(1, 200)], []) ∧
    shown (exec .s2Seq (framed 1 [(1, 10)] 1 137 [1])) = some ([(1, 137)], []) ∧
    shown (exec .s2Seq (framed 1 [(1, 255)] 1 0 [1])) = some ([(1, 0)], []) ∧
    shown (exec .s2Seq (framed 1 [(1, 250)] 1 121 [1])) = some ([(1, 121)], []) ∧
    shown (exec .s2Seq (framed 1 [(1, 200)] 1 71 [1])) = some ([(1, 71)], []) := by
  refine ⟨?_, ?_, ?_, ?_, ?_⟩ <;> decide

/-- T2 rows 4, 5, 7, 11: dropped, and the table kept. -/
theorem test_s2_drops :
    shown (exec .s2Seq (framed 1 [(1, 10)] 1 10 [1])) = some ([(1, 10)], [.completed (.dropSeq 0) []]) ∧
    shown (exec .s2Seq (framed 1 [(1, 10)] 1 9 [1])) = some ([(1, 10)], [.completed (.dropSeq 255) []]) ∧
    shown (exec .s2Seq (framed 1 [(1, 10)] 1 138 [1])) = some ([(1, 10)], [.completed (.dropSeq 128) []]) ∧
    shown (exec .s2Seq (framed 1 [(1, 250)] 1 122 [1])) = some ([(1, 250)], [.completed (.dropSeq 128) []]) := by
  decide

/-- T4 row 6, T7 row 7. -/
theorem test_s3_insufficient : shown (exec .s3LenChk (framed 2 [] 1 1 [1, 2, 3, 4, 5])) =
    record (.insufficient 5 6) [.report ⟨0x5, 1, 5⟩] := by
  decide

/-- T4 rows 5, 10: exactly enough passes; `3 * 21846` must not wrap to 2. -/
theorem test_s3_edges :
    shown (exec .s3LenChk (framed 2 [] 1 1 [1, 2, 3, 4, 5, 6])) = some ([], []) ∧
    shown (exec .s3LenChk (framed 21846 [] 1 1 [1, 2, 3])) =
      record (.insufficient 3 65538) [.report ⟨0x5, 1, 3⟩] := by
  decide +kernel

/-- T5 row 4: an extra channel is not mapped. -/
theorem test_s4_maps : (registers (exec .s4Map (framed 2 [] 1 1 [1, 2, 3, 4, 5, 6, 7]))).map Prod.snd =
    some (some [⟨1, 2, 3, 0⟩, ⟨4, 5, 6, 1⟩]) := by
  decide

/-- T6 row 2. -/
theorem test_s5_reports_and_goes_on : shown (exec .s5Forward (threeTriples [.ok, .err, .ok])) =
    record (.applied [1])
      [.call 1 2 3 0, .call 4 5 6 1, .report ⟨0x6, 1, 1⟩, .call 7 8 9 2] := by
  decide

/-- T6 row 4: with `DEV_ERR_ABORT`. -/
theorem test_s5_aborts :
    shown (exec .s5Forward { threeTriples [.ok, .err] with cfg := { (threeTriples []).cfg with devErrAbort := true } }) =
      record (.applied [1]) [.call 1 2 3 0, .call 4 5 6 1, .report ⟨0x6, 1, 1⟩] := by
  decide

/-- R150's example (W5), through `step`. -/
theorem test_step_applies : shown (step (block 1 [] [.datagram template [.ok]])) =
    some ([(1, 11)], [.completed (.applied []) [.call 10 20 30 0]]) := by
  decide +kernel

/-- T7 row 9: the decoder runs before the universe filter. -/
theorem test_step_decoder_first :
    shown (step (block 1 [] [.datagram (patch (patch template 125 0xdd) 114 0x02) []])) =
      record (.malformed .badStartCode) [.report ⟨0x4, 0, 0xdd⟩] := by
  decide +kernel

/-- T8: after a reset the frame is a first frame; without it it is old. -/
theorem test_step_reset :
    shown (step (block 1 [(1, 200)] [.reset ⟨1, 1⟩])) = some ([], []) ∧
    shown (step (block 1 [(1, 200)] [.datagram (encodeFrame 1 100 [7, 7, 7]) []])) =
      some ([(1, 200)], [.completed (.dropSeq 156) []]) := by
  decide +kernel

/-- The host's placement: the very next step after reset runs the placed datagram. -/
theorem test_placed_word_runs :
    (shown (step (State.reset.withFetchWord (8 * 129)
      ((patch template 114 0x02).foldr (fun b w => w * 256 + b.toNat) 0)))) = record .dropUniverse [] := by
  decide +kernel

/-! ## Witnesses: for every statement with hypotheses, data that meet all of them -/

theorem witness_DecodeEncodeRoundTrip :
    (Instr.e131Data 65535 255 (List.replicate 512 0)).WellFormed = true ∧
    encode (.e131Data 65535 255 (List.replicate 512 0)) = some (encodeFrame 65535 255 (List.replicate 512 0)) ∧
    (Instr.e131Data 0 0 [0]).WellFormed = true ∧ encode (.e131Data 0 0 [0]) = some (encodeFrame 0 0 [0]) := by
  decide +kernel

theorem witness_FrameRoundTripAndConverse :
    (1 ≤ [(0 : Byte)].length ∧ [(0 : Byte)].length ≤ 512) ∧
    (1 ≤ (List.replicate 512 (7 : Byte)).length ∧ (List.replicate 512 (7 : Byte)).length ≤ 512) ∧
    decode (patch template 112 0x40) = .ok ⟨1, 11, [10, 20, 30]⟩ ∧
    encodeFrame 1 11 [10, 20, 30] ≠ patch template 112 0x40 := by
  decide +kernel

theorem witness_DecodedInstrIsWellFormedE131 : decodeInstr template = .ok (.e131Data 1 11 [10, 20, 30]) :=
  test_template_decodes

/-- One datagram for each clause of the priority statement, and one that fails two checks at once. -/
theorem witness_RejectionReasonsAndPriority :
    (template.take 125).length < 126 ∧
    (126 ≤ (patch template 21 0x08).length ∧ dg (patch template 21 0x08) 18 4 ≠ some 4) ∧
    (dg (patch template 43 0x01) 18 4 = some 4 ∧ dg (patch template 43 0x01) 40 4 ≠ some 2) ∧
    (dg (patch template 117 0x01) 40 4 = some 2 ∧ dg (patch template 117 0x01) 117 1 ≠ some 2) ∧
    (dg (patch template 124 0x05) 117 1 = some 2 ∧ dg (patch template 124 0x05) 123 2 = some 5) ∧
    (dg (patch template 125 0xdd) 123 2 = some 4 ∧ dg (patch template 125 0xdd) 125 1 = some 0xdd) ∧
    decode template = .ok ⟨1, 11, [10, 20, 30]⟩ := by
  decide +kernel

/-- The boundary lengths of every clause; that V2 to V6 can each be the first to fail, or none, within 127..638 is
`witness_RejectionReasonsAndPriority`. -/
theorem witness_BehaviourByLength :
    (template.take 125).length = 125 ∧ (template.take 126).length = 126 ∧
    (encodeFrame 1 11 [0x55]).length = 127 ∧ (encodeFrame 1 11 (List.replicate 512 7)).length = 638 ∧
    (encodeFrame 1 11 (List.replicate 513 7)).length = 639 ∧
    decode ((patch template 21 0x08).take 126) = .error (.wrongVector .root) := by
  decide +kernel

/-- T1 row 26 with one flags nibble 0 as in row 24, and the template, differ but only in what is ignored. -/
theorem witness_IgnoredFieldsGiveSameResult :
    ∃ D D' : Datagram, D ≠ D' ∧ SameButIgnored D D' := by
  refine ⟨template, List.replicate 16 0xff ++ patch (template.drop 16) 0 0x00, by decide +kernel, by decide +kernel, ?_,
    by decide +kernel⟩
  have hin : ∀ k, k < 129 → readOffset k = true →
      template[k]? = (List.replicate 16 0xff ++ patch (template.drop 16) 0 0x00)[k]? := by
    decide +kernel
  intro k hk
  by_cases h : k < 129
  · exact hin k h hk
  · have hs : ∀ E : Datagram, E.length = 129 → E[k]? = none := fun E he =>
      List.getElem?_eq_none (by omega)
    rw [hs _ (by decide +kernel), hs _ (by decide +kernel)]

theorem witness_DeclaredCountsOfAcceptedDatagram :
    decode template = .ok ⟨1, 11, [10, 20, 30]⟩ ∧ (List.replicate 512 (7 : Byte)).length = 512 ∧
    [(7 : Byte)].length = 1 := by
  decide +kernel

theorem witness_MinLenCheck :
    ((receiving (template.take 125)).rx = some (template.take 125) ∧ (template.take 125).length = 125) ∧
    ((receiving (template.take 126)).rx = some (template.take 126) ∧ (template.take 126).length = 126) ∧
    (receiving []).rx = some [] := by
  decide +kernel

/-- Each vector check at the shortest datagram it can read, on the right vector and on a wrong one. -/
theorem witness_VectorChecks :
    ((receiving (template.take 22)).rx = some (template.take 22) ∧ 22 ≤ (template.take 22).length ∧
      ((template.take 22).drop 18).take 4 = [0x00, 0x00, 0x00, 0x04]) ∧
    ((receiving (template.take 44)).rx = some (template.take 44) ∧ 44 ≤ (template.take 44).length ∧
      ((template.take 44).drop 40).take 4 = [0x00, 0x00, 0x00, 0x02]) ∧
    ((receiving (template.take 118)).rx = some (template.take 118) ∧ 118 ≤ (template.take 118).length ∧
      ((template.take 118).drop 117).take 1 = [0x02]) ∧
    (22 ≤ (patch template 21 0x08).length ∧ ((patch template 21 0x08).drop 18).take 4 ≠ [0x00, 0x00, 0x00, 0x04]) ∧
    (44 ≤ (patch template 43 0x01).length ∧ ((patch template 43 0x01).drop 40).take 4 ≠ [0x00, 0x00, 0x00, 0x02]) ∧
    (118 ≤ (patch template 117 0x01).length ∧ ((patch template 117 0x01).drop 117).take 1 ≠ [0x02]) := by
  decide +kernel

/-- The shortest datagram V5 can read, and the longest it accepts. -/
theorem witness_LengthsCheck :
    ((receiving (template.take 125)).rx = some (template.take 125) ∧ 125 ≤ (template.take 125).length) ∧
    (receiving (encodeFrame 1 1 (List.replicate 512 7))).rx = some (encodeFrame 1 1 (List.replicate 512 7)) ∧
    shown (exec .v5Lengths (receiving (encodeFrame 1 1 (List.replicate 512 7)))) = some ([], []) := by
  decide +kernel

theorem witness_StartCodeCheck :
    ((receiving template).rx = some template ∧ template[125]? = some 0x00) ∧
    (receiving (patch template 125 0x01)).rx = some (patch template 125 0x01) ∧
    (patch template 125 0x01)[125]? = some 0x01 := by
  decide +kernel

theorem witness_ExtractWritesFrame :
    ((receiving (encodeFrame 1 1 [7])).rx = some (encodeFrame 1 1 [7]) ∧ (encodeFrame 1 1 [7]).length = 127) ∧
    (receiving (encodeFrame 1 1 (List.replicate 512 7))).rx = some (encodeFrame 1 1 (List.replicate 512 7)) ∧
    (encodeFrame 1 1 (List.replicate 512 7)).length = 638 := by
  decide +kernel

theorem witness_UniverseFilter :
    (framed 1 [] 1 5 [1, 2, 3]).frame = some ⟨1, 5, 3, [1, 2, 3]⟩ ∧
    (framed 1 [] 2 5 [1, 2, 3]).frame = some ⟨2, 5, 3, [1, 2, 3]⟩ ∧ (framed 1 [] 2 5 [1, 2, 3]).cfg.targetUniverse = 1 := by
  decide

/-- The first frame, the ends of the window, and the values just outside it. -/
theorem witness_SequenceFilter :
    (framed 1 [(1, 10)] 1 137 [1]).frame = some ⟨1, 137, 1, [1]⟩ ∧
    Reference.accepts (block 1 [] []).cfg (usRead [] 1) 200 = true ∧
    Reference.accepts (block 1 [] []).cfg (usRead [(1, 10)] 1) 11 = true ∧
    Reference.accepts (block 1 [] []).cfg (usRead [(1, 10)] 1) 137 = true ∧
    Reference.accepts (block 1 [] []).cfg (usRead [(1, 10)] 1) 138 = false ∧
    Reference.accepts (block 1 [] []).cfg (usRead [(1, 10)] 1) 10 = false := by
  decide

theorem witness_ChannelCountCheck :
    (framed 2 [] 1 1 [1, 2, 3, 4, 5]).frame = some ⟨1, 1, 5, [1, 2, 3, 4, 5]⟩ ∧
    (5 : BitVec 10).toNat < 3 * (framed 2 [] 1 1 [1, 2, 3, 4, 5]).cfg.pixelCount.toNat ∧
    (framed 2 [] 1 1 [1, 2, 3, 4, 5, 6]).frame = some ⟨1, 1, 6, [1, 2, 3, 4, 5, 6]⟩ ∧
    ¬ (6 : BitVec 10).toNat < 3 * (framed 2 [] 1 1 [1, 2, 3, 4, 5, 6]).cfg.pixelCount.toNat := by
  decide

theorem witness_MapperBuildsTriples :
    (framed 2 [] 1 1 [1, 2, 3, 4, 5, 6]).frame = some ⟨1, 1, 6, [1, 2, 3, 4, 5, 6]⟩ ∧
    3 * (framed 2 [] 1 1 [1, 2, 3, 4, 5, 6]).cfg.pixelCount.toNat ≤ [(1 : Byte), 2, 3, 4, 5, 6].length := by
  decide

theorem witness_ForwardCallsEveryPixel :
    (threeTriples [.ok, .err, .ok]).triples = some [⟨1, 2, 3, 0⟩, ⟨4, 5, 6, 1⟩, ⟨7, 8, 9, 2⟩] ∧
    (threeTriples [.ok, .err, .ok]).cfg.pixelCount.toNat = 3 ∧ (threeTriples [.ok, .err, .ok]).oracle 1 = .err := by
  decide

theorem witness_E131DataIsDispatch :
    (block 1 [] []).cfg.legal = true ∧ (1 ≤ [(0 : Byte)].length ∧ [(0 : Byte)].length ≤ 512) ∧
    (1 ≤ (List.replicate 512 (7 : Byte)).length ∧ (List.replicate 512 (7 : Byte)).length ≤ 512) := by
  decide +kernel

theorem witness_E131DataIllFormedIsRejected :
    (block 1 [] []).cfg.legal = true ∧ ([] : List Byte).length = 0 ∧ 512 < (List.replicate 513 (7 : Byte)).length := by
  decide +kernel

/-- The corners of the legal set. -/
theorem witness_StepIsTheDatagramStep :
    (Cfg.mk 1 1 1 false).legal = true ∧ (Cfg.mk 63999 65535 254 true).legal = true ∧
    (block 1 [] []).cfg.legal = true := by
  decide

theorem witness_EveryAnswerSequenceIsPossible : (0 : Nat) < 1 := by decide

theorem witness_StepRunsDecodedInstr : decodeInstr template = .ok (.e131Data 1 11 [10, 20, 30]) :=
  test_template_decodes

/-- Just outside the legal set on every side. -/
theorem witness_IllegalConfigurationIsRefused :
    (Cfg.mk 0 1 127 false).legal = false ∧ (Cfg.mk 64000 1 127 false).legal = false ∧
    (Cfg.mk 1 0 127 false).legal = false ∧ (Cfg.mk 1 1 0 false).legal = false ∧
    (Cfg.mk 1 1 255 false).legal = false ∧ (block 0 [] []).cfg.legal = false := by
  decide

theorem witness_StepIsTotal : State.reset.cfg.legal = true := by decide

theorem witness_IdleStepChangesNothing : State.reset.inbox = [] := rfl

/-- A state that the step of each kind of stimulus answers with a next state. -/
theorem witness_StimuliAreTakenInOrder :
    (∃ t, step (block 1 [] [.reset ⟨1, 1⟩]) = .next t) ∧ (∃ t, step State.reset = .next t) ∧
    (shown (step (block 1 [] [.datagram template [.ok]]))).isSome = true := by
  refine ⟨⟨_, rfl⟩, ⟨_, rfl⟩, by decide +kernel⟩

theorem witness_FirstFrameAfterResetIsAccepted :
    (State.resetWith { targetUniverse := 1, pixelCount := 1 }).cfg.legal = true ∧
    decode template = .ok ⟨1, 11, [10, 20, 30]⟩ ∧ (DataFrame.mk 1 11 [10, 20, 30]).univ = 1 := by
  decide +kernel

theorem witness_ResetCutsStep :
    (block 1 [] []).cfg.legal = true ∧
    shown (step (block 1 [] [.cutByReset template [.err] 1 ⟨1, 1⟩])) = some ([], [.cut [.call 10 20 30 0]]) := by
  decide +kernel

theorem witness_StepKeepsInvariant :
    (block 1 [] [.datagram template [.ok]]).Inv ∧
    (shown (step (block 1 [] [.datagram template [.ok]]))).isSome = true := by
  refine ⟨⟨rfl, fun _ _ => rfl, rfl, rfl, rfl, rfl, rfl, rfl, rfl⟩, by decide +kernel⟩

theorem witness_OnlySequenceStageWritesUs :
    (∃ t, exec .s1UFilter (framed 1 [] 1 5 [1, 2, 3]) = .next t) ∧ Instr.s1UFilter ≠ .s2Seq ∧
    ∀ (u : U16) (q : Byte) (d : List Byte), Instr.s1UFilter ≠ .e131Data u q d := by
  refine ⟨⟨_, rfl⟩, by decide, fun _ _ _ h => by cases h⟩

/-- A reset with other straps changes the configuration; an instruction answers a next state. -/
theorem witness_ConfigurationIsConstant :
    (∃ t, exec .s1UFilter (framed 1 [] 1 5 [1, 2, 3]) = .next t) ∧
    ∃ t, step (block 1 [] [.reset ⟨7, 9⟩]) = .next t ∧ t.cfg ≠ (block 1 [] [.reset ⟨7, 9⟩]).cfg := by
  refine ⟨⟨_, rfl⟩, _, rfl, by decide⟩

/-- The four rows of R28, an accepted frame for another universe, and a datagram that decodes to nothing. -/
theorem witness_UniverseEntryTransitions :
    shown (step (block 1 [] [.datagram template [.ok]])) =
      some ([(1, 11)], [.completed (.applied []) [.call 10 20 30 0]]) ∧
    (decode template = .ok ⟨1, 11, [10, 20, 30]⟩ ∧ usRead [] 1 = none ∧ usRead [(1, 10)] 1 = some 10) ∧
    Reference.delta 11 10 = 1 ∧ Reference.delta 137 10 = 127 ∧ Reference.delta 10 10 = 0 ∧
    Reference.delta 138 10 = 128 ∧
    shown (step (block 1 [(1, 138)] [.datagram template []])) =
      some ([(1, 138)], [.completed (.dropSeq 129) []]) ∧
    decode (patch template 114 0x02) = .ok ⟨2, 11, [10, 20, 30]⟩ ∧ decode [] = .error .truncated := by
  decide +kernel

/-- Both sides of the equivalence hold of an insufficient and of an applied step, and fail of a dropped one. -/
theorem witness_UsChangesExactlyWhenAccepted :
    shown (step (block 2 [(1, 10)] [.datagram template []])) =
      some ([(1, 11)], [.completed (.insufficient 3 6) [.report ⟨0x5, 1, 3⟩]]) ∧
    shown (step (block 1 [(1, 11)] [.datagram template []])) = some ([(1, 11)], [.completed (.dropSeq 0) []]) := by
  decide +kernel

theorem witness_CallsOnlyWhenApplied :
    shown (step (block 1 [] [.datagram template [.err]])) =
      some ([(1, 11)], [.completed (.applied [0]) [.call 10 20 30 0, .report ⟨0x6, 1, 0⟩]]) ∧
    (block 1 [] []).cfg.devErrAbort = false ∧
    shown (step (block 1 [] [.datagram [] []])) = record (.malformed .truncated) [.report ⟨0x1, 0, 0⟩] := by
  decide +kernel

theorem witness_DeviceAnswersDoNotReachState :
    (shown (step (block 1 [] [.datagram template [.ok]]))).isSome = true ∧
    (shown (step { block 1 [] [.datagram template [.err]] with draws := 5 })).isSome = true := by
  decide +kernel

theorem witness_DropsAreSilent :
    shown (step (block 1 [] [.datagram (patch template 114 0x02) []])) = record .dropUniverse [] ∧
    shown (step (block 1 [(1, 11)] [.datagram template []])) = some ([(1, 11)], [.completed (.dropSeq 0) []]) := by
  decide +kernel

/-- One step for each outcome of the statement's case split. -/
theorem witness_ErrorsDoNotMix :
    shown (step (block 1 [] [.datagram (template.take 128) []])) =
      record (.malformed .lengthMismatch) [.report ⟨0x3, 0, 128⟩] ∧
    shown (step (block 2 [] [.datagram template []])) =
      some ([(1, 11)], [.completed (.insufficient 3 6) [.report ⟨0x5, 1, 3⟩]]) ∧
    shown (step (block 1 [] [.datagram (patch template 114 0x02) []])) = record .dropUniverse [] ∧
    shown (step (block 1 [(1, 11)] [.datagram template []])) = some ([(1, 11)], [.completed (.dropSeq 0) []]) ∧
    shown (step (block 1 [] [.datagram template [.err]])) =
      some ([(1, 11)], [.completed (.applied [0]) [.call 10 20 30 0, .report ⟨0x6, 1, 0⟩]]) := by
  refine ⟨?_, ?_, ?_, ?_, ?_⟩ <;> decide +kernel

/-- P3's pattern: the same datagram presented twice, once applied and once insufficient. -/
theorem witness_RetransmissionIsDuplicateDrop :
    shown (step (block 1 [] [.datagram template [.ok], .datagram template []])) =
      some ([(1, 11)], [.completed (.applied []) [.call 10 20 30 0]]) ∧
    shown (step (block 2 [] [.datagram template [], .datagram template []])) =
      some ([(1, 11)], [.completed (.insufficient 3 6) [.report ⟨0x5, 1, 3⟩]]) := by
  decide +kernel

/-- T4 row 9: the smallest such pixel count, on the longest frame. -/
theorem witness_TooManyPixelsNeverForward :
    171 ≤ (block 171 [] []).cfg.pixelCount.toNat ∧
    shown (step (block 171 [] [.datagram (encodeFrame 1 1 (List.replicate 512 7)) []])) =
      some ([(1, 1)], [.completed (.insufficient 512 513) [.report ⟨0x5, 1, 512⟩]]) := by
  decide +kernel

/-- Two states with one block and different surroundings, one of them with a frame left in the registers. -/
theorem witness_OnlyBlockIsState :
    ({ framed 1 [(1, 10)] 1 5 [9] with log := [.completed .dropUniverse []] }).toBlock = (block 1 [(1, 10)] []).toBlock ∧
    ({ framed 1 [(1, 10)] 1 5 [9] with log := [.completed .dropUniverse []] }).cfg = (block 1 [(1, 10)] []).cfg ∧
    ({ framed 1 [(1, 10)] 1 5 [9] with log := [.completed .dropUniverse []] }).draws = (block 1 [(1, 10)] []).draws ∧
    shown (step (block 1 [(1, 10)] [.datagram template [.ok]])) =
      some ([(1, 11)], [.completed (.applied []) [.call 10 20 30 0]]) := by
  refine ⟨rfl, rfl, rfl, by decide +kernel⟩

/-- Each clause of the statement at its boundary value. -/
theorem witness_OutOfPlaceReadsFault :
    (State.reset.rx = none ∧ State.reset.frame = none ∧ State.reset.triples = none) ∧
    ((template.take 21).length < 22 ∧ (template.take 43).length < 44 ∧ (template.take 117).length < 118 ∧
      (template.take 124).length < 125 ∧ (template.take 125).length < 126 ∧ (template.take 114).length < 115) ∧
    (115 ≤ (template.take 126).length ∧ (template.take 126).length < 127) ∧
    638 < (encodeFrame 1 1 (List.replicate 513 7)).length ∧
    (framed 2 [] 1 1 [1, 2, 3, 4, 5]).frame = some ⟨1, 1, 5, [1, 2, 3, 4, 5]⟩ ∧
    [(1 : Byte), 2, 3, 4, 5].length < 3 * (framed 2 [] 1 1 [1, 2, 3, 4, 5]).cfg.pixelCount.toNat ∧
    ({ framed 2 [] 1 1 [1] with triples := some [⟨1, 2, 3, 0⟩] }).triples = some [⟨1, 2, 3, 0⟩] := by
  decide +kernel

/-- A fault by name: an operation that reads the datagram while none is in progress (U7, R40). -/
theorem test_v1_out_of_place : exec .v1MinLen State.reset = .fault .noDatagram := rfl

/-- U7: a register that holds no value. -/
theorem test_s5_out_of_place : exec .s5Forward State.reset = .fault .registerUnwritten := rfl

/-- U9. -/
theorem test_step_illegal_configuration :
    step (block 0 [] [.datagram [] []]) = .refused .illegalConfiguration := rfl

end Sys2Proof.Tests
end

section
/-! PROOFS. The ignored fields (30_encoding.md R76): everything the decoder and the step read of a datagram, a field, the
low bits of a flags-and-length field, the channel bytes, the info word of a report, is the same on two datagrams that are
`SameButIgnored`. -/

namespace Sys2Proof

/-- A field is determined by its own bytes. -/
theorem field_congr {D D' : Datagram} {off n : Nat} (h : ∀ k < n, D[off + k]? = D'[off + k]?) :
    field D off n = field D' off n := by
  have hbytes : (D.drop off).take n = (D'.drop off).take n := by
    apply List.ext_getElem?
    intro k
    rw [List.getElem?_take, List.getElem?_take, List.getElem?_drop, List.getElem?_drop]
    by_cases hk : k < n
    · rw [if_pos hk, if_pos hk, h k hk]
    · rw [if_neg hk, if_neg hk]
  rw [field, field, hbytes]

/-- The comparison of R94 looks at the low twelve bits of the flags-and-length fields and at nothing above them (R66). -/
theorem lengthsOk_congr {rl rl' fl fl' dl dl' : Nat} (hr : rl % 4096 = rl' % 4096) (hf : fl % 4096 = fl' % 4096)
    (hd : dl % 4096 = dl' % 4096) (pvc n : Nat) : lengthsOk rl fl dl pvc n = lengthsOk rl' fl' dl' pvc n := by
  rw [Bool.eq_iff_iff, lengthsOk_iff, lengthsOk_iff, hr, hf, hd]

namespace SameButIgnored

variable {D D' : Datagram}

theorem length_eq (h : SameButIgnored D D') : D.length = D'.length := h.1

theorem getElem?_eq (h : SameButIgnored D D') {k : Nat} (hk : readOffset k = true) : D[k]? = D'[k]? := h.2.1 k hk

theorem lowLength_eq (h : SameButIgnored D D') {o : Nat} (ho : o ∈ lengthOffsets) :
    field D o 2 % 4096 = field D' o 2 % 4096 := h.2.2 o ho

/-- A field whose bytes are all read has the same value in both. -/
theorem field_eq (h : SameButIgnored D D') {off n : Nat} (hread : ∀ k < n, readOffset (off + k) = true) :
    field D off n = field D' off n :=
  field_congr fun k hk => h.getElem?_eq (hread k hk)

theorem channelBytes_eq (h : SameButIgnored D D') : channelBytes D = channelBytes D' := by
  apply List.ext_getElem?
  intro k
  have hread : readOffset (126 + k) = true := by
    simp only [readOffset, Bool.or_eq_true, decide_eq_true_eq]
    omega
  rw [channelBytes, channelBytes, List.getElem?_drop, List.getElem?_drop, h.getElem?_eq hread]

theorem frameOf_eq (h : SameButIgnored D D') : frameOf D = frameOf D' := by
  rw [frameOf, frameOf, fieldOf, fieldOf, fieldOf, fieldOf, h.field_eq (off := wire.univ.off) (by decide),
    h.field_eq (off := wire.seq.off) (by decide), h.channelBytes_eq]

theorem lengthsOk_eq (h : SameButIgnored D D') :
    lengthsOk (field D 16 2) (field D 38 2) (field D 115 2) (field D 123 2) D.length =
      lengthsOk (field D' 16 2) (field D' 38 2) (field D' 115 2) (field D' 123 2) D'.length := by
  rw [h.length_eq, h.field_eq (off := 123) (by decide)]
  exact lengthsOk_congr (h.lowLength_eq (by decide)) (h.lowLength_eq (by decide)) (h.lowLength_eq (by decide)) _ _

/-- Each of the six checks and the extraction sees the same in both (40_frame_decoder.md R97). -/
theorem decode_eq (h : SameButIgnored D D') : decode D = decode D' := by
  by_cases hlong : 126 ≤ D.length
  · have hlong' : 126 ≤ D'.length := h.length_eq ▸ hlong
    rw [decode_of_long hlong, decode_of_long hlong', h.field_eq (off := 18) (by decide),
      h.field_eq (off := 40) (by decide), h.field_eq (off := 117) (by decide), h.lengthsOk_eq,
      h.field_eq (off := 125) (by decide), h.frameOf_eq]
  · have hshort : D.length < 126 := Nat.lt_of_not_le hlong
    rw [decode_of_short hshort, decode_of_short (h.length_eq ▸ hshort)]

theorem decodeInstr_eq (h : SameButIgnored D D') : decodeInstr D = decodeInstr D' := by
  rw [decodeInstr, decodeInstr, h.decode_eq]

end SameButIgnored

end Sys2Proof

namespace Sys2Proof.Machine

/-- The length and the start code are all an info word can carry of a datagram (60_exceptions.md R171). -/
theorem malformedInfo_sameButIgnored {D D' : Datagram} (h : SameButIgnored D D') (r : Malformed) :
    malformedInfo D r = malformedInfo D' r := by
  cases r with
  | truncated => rw [malformedInfo, malformedInfo, h.length_eq]
  | wrongVector l => rfl
  | lengthMismatch => rw [malformedInfo, malformedInfo, h.length_eq]
  | badStartCode =>
    rw [malformedInfo, malformedInfo, fieldOf, fieldOf, h.field_eq (off := wire.startCode.off) (by decide)]

/-- The end of a step discards the datagram (42_datagram_step.md R154): which one was received no longer shows. -/
theorem State.raise_receive (s : State) (D D' : Datagram) (e : Raised) :
    (s.receive D).raise e = (s.receive D').raise e := rfl

/-- The twelve operations end alike on both: with the same report, or with the same frame in the pipeline. -/
theorem runDatagram_sameButIgnored {D D' : Datagram} (h : SameButIgnored D D') (s : State) :
    runDatagram D s = runDatagram D' s := by
  cases hl : s.cfg.legal with
  | false => rw [runDatagram_illegal hl, runDatagram_illegal hl]
  | true =>
    cases hd : decode D with
    | error r =>
      rw [runDatagram_error hl hd, runDatagram_error hl (h.decode_eq ▸ hd), malformedInfo_sameButIgnored h,
        State.raise_receive s D D']
    | ok f => rw [runDatagram_result hl hd, runDatagram_result hl (h.decode_eq ▸ hd)]

theorem runPresented_sameButIgnored {D D' : Datagram} (h : SameButIgnored D D') (s : State) :
    runPresented D s = runPresented D' s := by
  rw [runPresented, runPresented, h.decodeInstr_eq, runDatagram_sameButIgnored h]

/-- The step that takes a datagram is that datagram presented with its answers. -/
theorem step_datagram (s : State) (D : Datagram) (a : List Answer) (rest : List Input) :
    step { s with inbox := .datagram D a :: rest } = runPresented D (s.taking a rest) := rfl

/-- Settles O6: the decoder and the step each read of a datagram only what two `SameButIgnored` datagrams share. -/
theorem ignoredFieldsGiveSameResult : Obligations.IgnoredFieldsGiveSameResult := by
  intro D D' h
  refine ⟨h.decode_eq, fun s a rest => ?_⟩
  rw [step_datagram, step_datagram, runPresented_sameButIgnored h]

end Sys2Proof.Machine
end

section
/-! PROOFS. Reads of a datagram as bytes: a field of `n` bytes is below `256 ^ n` and reads as `v` exactly when its bytes
are those of `v`, most significant first (20_memory.md R41, R42). -/

namespace Sys2Proof

/-- Reading bytes most significant first loses none of them: neither what was read before nor the bytes themselves. -/
theorem foldl_bytes_inj {bytes bytes' : List Byte} (hlen : bytes.length = bytes'.length) {acc acc' : Nat}
    (h : bytes.foldl (fun a b => a * 256 + b.toNat) acc = bytes'.foldl (fun a b => a * 256 + b.toNat) acc') :
    acc = acc' ∧ bytes = bytes' := by
  induction bytes generalizing bytes' acc acc' with
  | nil =>
    obtain rfl := List.length_eq_zero_iff.1 hlen.symm
    exact ⟨h, rfl⟩
  | cons b bs ih =>
    cases bytes' with
    | nil => cases hlen
    | cons b' bs' =>
      obtain ⟨hacc, rfl⟩ := ih (Nat.succ.inj hlen) h
      have hstep : acc * 256 + b.toNat = acc' * 256 + b'.toNat := hacc
      have hb : b = b' := BitVec.eq_of_toNat_eq (by omega)
      exact ⟨by omega, by rw [hb]⟩

/-- Each further byte leaves the number below `256` times its old bound. -/
theorem foldl_bytes_lt (bytes : List Byte) (acc : Nat) :
    bytes.foldl (fun a b => a * 256 + b.toNat) acc < (acc + 1) * 256 ^ bytes.length := by
  induction bytes generalizing acc with
  | nil => simp
  | cons b bs ih =>
    calc (b :: bs).foldl (fun a b => a * 256 + b.toNat) acc
        < (acc * 256 + b.toNat + 1) * 256 ^ bs.length := ih _
      _ ≤ ((acc + 1) * 256) * 256 ^ bs.length := Nat.mul_le_mul_right _ (by omega)
      _ = (acc + 1) * 256 ^ (b :: bs).length := by rw [List.length_cons, Nat.pow_succ]; ring

variable {D : Datagram} {off n v : Nat}

theorem fieldBytes_length (h : off + n ≤ D.length) : ((D.drop off).take n).length = n := by
  rw [List.length_take, List.length_drop]
  omega

theorem field_lt (h : off + n ≤ D.length) : field D off n < 256 ^ n := by
  simpa [field, beNat, fieldBytes_length h] using foldl_bytes_lt ((D.drop off).take n) 0

/-- A field reads as `v` exactly when its bytes are the big-endian bytes of `v`. -/
theorem field_eq_iff_bytes (h : off + n ≤ D.length) (hv : v < 256 ^ n) :
    field D off n = v ↔ (D.drop off).take n = beBytes n v := by
  have hlen : ((D.drop off).take n).length = (beBytes n v).length := by
    rw [fieldBytes_length h, beBytes_length]
  have hbe : beNat (beBytes n v) = v := by rw [beNat_beBytes, Nat.mod_eq_of_lt hv]
  constructor
  · intro hf
    exact (foldl_bytes_inj hlen (hf.trans hbe.symm)).2
  · intro hb
    rw [field, hb, hbe]

theorem dg_eq_some_iff (h : off + n ≤ D.length) : dg D off n = some v ↔ field D off n = v := by
  rw [dg_of_le h, Option.some.injEq]

theorem field_one_eq_getD (h : off < D.length) : field D off 1 = (D.getD off 0).toNat := by
  rw [field_one h, List.getD_eq_getElem]

theorem field_two_eq_getD (h : off + 1 < D.length) :
    field D off 2 = (D.getD off 0).toNat * 256 + (D.getD (off + 1) 0).toNat := by
  rw [field_two h, List.getD_eq_getElem, List.getD_eq_getElem]

/-- Two bytes read most significant first are the halves of the word (20_memory.md R42). -/
theorem ofNat_bytes_eq_append (hi lo : Byte) : BitVec.ofNat 16 (hi.toNat * 256 + lo.toNat) = hi ++ lo := by
  apply BitVec.eq_of_toNat_eq
  rw [BitVec.toNat_append, ← Nat.shiftLeft_add_eq_or_of_lt lo.isLt, Nat.shiftLeft_eq, BitVec.toNat_ofNat]
  omega

end Sys2Proof
end

section
/-! PROOFS. The decoder as a function (40_frame_decoder.md R97, R98, R173): each reason is the first failing check, and
what passes them all is the DataFrame. -/

open Sys2Proof.Claims

namespace Sys2Proof

variable {D : Datagram}

/-- The counts read through `DG` are the fields the decoder compares (R94). -/
theorem countsAgree_iff (h : 125 ≤ D.length) : countsAgree D ↔
    lengthsOk (field D 16 2) (field D 38 2) (field D 115 2) (field D 123 2) D.length = true := by
  simp (disch := omega) only [countsAgree, dg_eq_some_iff, lengthsOk_iff]
  constructor
  · rintro ⟨_, _, _, _, rfl, rfl, rfl, rfl, hcounts⟩
    exact hcounts
  · intro hcounts
    exact ⟨_, _, _, _, rfl, rfl, rfl, rfl, hcounts⟩

/-- A word of `w` bits made from a number below `2 ^ w` is the word with that value. -/
theorem ofNat_eq_iff_of_lt {w v : Nat} (h : v < 2 ^ w) (x : BitVec w) : BitVec.ofNat w v = x ↔ v = x.toNat := by
  rw [← BitVec.toNat_inj, BitVec.toNat_ofNat, Nat.mod_eq_of_lt h]

/-- The extracted frame by its three components (R96, R97). -/
theorem frameOf_eq_iff (h : 115 ≤ D.length) (f : DataFrame) : frameOf D = f ↔
    field D 113 2 = f.univ.toNat ∧ field D 111 1 = f.seq.toNat ∧ f.data = D.drop 126 := by
  rw [← ofNat_eq_iff_of_lt (field_lt h), ← ofNat_eq_iff_of_lt (field_lt (by omega)), eq_comm (a := f.data)]
  exact Iff.of_eq (DataFrame.mk.injEq ..)

/-- Settles O4: the first failing check gives the reason, and passing all six leaves exactly `frameOf D`. -/
theorem rejectionReasonsAndPriority : Obligations.RejectionReasonsAndPriority := by
  intro D
  by_cases hmin : 126 ≤ D.length
  case neg => simp [decode_of_short (Nat.lt_of_not_le hmin), hmin, Nat.lt_of_not_le hmin]
  simp (disch := omega) only [dg_eq_some_iff, countsAgree_iff, hmin, Nat.not_lt.2 hmin, true_and, ne_eq, iff_false,
    ← frameOf_eq_iff]
  rw [decode_of_long hmin]
  by_cases hroot : field D 18 4 = 4
  case neg => simp [hroot]
  by_cases hframe : field D 40 4 = 2
  case neg => simp [hroot, hframe]
  by_cases hdmp : field D 117 1 = 2
  case neg => simp [hroot, hframe, hdmp]
  by_cases hcounts : lengthsOk (field D 16 2) (field D 38 2) (field D 115 2) (field D 123 2) D.length = true
  case neg => simp [hroot, hframe, hdmp, hcounts]
  by_cases hstart : field D 125 1 = 0
  case neg => simp [hroot, hframe, hdmp, hcounts, hstart]
  simp [hroot, hframe, hdmp, hcounts, hstart]

end Sys2Proof
end

section
/-! PROOFS. The Frame Decoder's operations one by one (40_frame_decoder.md R90 to R96): each check compares the bytes it
reads and otherwise ends the step with one report, and the extraction writes the DataFrame registers. -/

namespace Sys2Proof.Machine

/-- An error ends the step with its own report as the one further event (60_exceptions.md R171, R177). -/
theorem State.raise_malformed (s : State) (r : Malformed) (info : U16) :
    s.raise (.malformed r info) = s.ended (.malformed r) [.report ⟨malformedCode r, 0#1, info⟩] := rfl

/-- A check that tests `c`: unchanged where it holds, ended with the report of `r` where it fails (R172). -/
theorem checked_eq_ite {c : Prop} [Decidable c] {passed : Bool} (h : passed = true ↔ c) (s : State) (D : Datagram)
    (r : Malformed) : checked s D r passed = .next
      (if c then s else s.ended (.malformed r) [.report ⟨malformedCode r, 0#1, malformedInfo D r⟩]) := by
  by_cases hc : c
  · rw [checked_pass (h.2 hc), if_pos hc]
  · rw [checked_fail (Bool.eq_false_of_not_eq_true (mt h.1 hc)), if_neg hc, State.raise_malformed]

/-! ## Each operation on a datagram its reads are in bounds of -/

variable {s : State} {D : Datagram}

theorem exec_v1MinLen (h : s.rx = some D) : exec .v1MinLen s = checked s D .truncated (minLenOk D.length) :=
  withDatagram_some h _

theorem exec_v2RootVec (h : s.rx = some D) (hlen : 22 ≤ D.length) :
    exec .v2RootVec s = checked s D (.wrongVector .root) (rootVecOk (field D 18 4)) :=
  (withDatagram_some h _).trans (withField_of_le (f := wire.rootVec) hlen _)

theorem exec_v3FrameVec (h : s.rx = some D) (hlen : 44 ≤ D.length) :
    exec .v3FrameVec s = checked s D (.wrongVector .framing) (frameVecOk (field D 40 4)) :=
  (withDatagram_some h _).trans (withField_of_le (f := wire.frameVec) hlen _)

theorem exec_v4DmpVec (h : s.rx = some D) (hlen : 118 ≤ D.length) :
    exec .v4DmpVec s = checked s D (.wrongVector .dmp) (dmpVecOk (field D 117 1)) :=
  (withDatagram_some h _).trans (withField_of_le (f := wire.dmpVec) hlen _)

theorem exec_v5Lengths (h : s.rx = some D) (hlen : 125 ≤ D.length) :
    exec .v5Lengths s = checked s D .lengthMismatch
      (lengthsOk (field D 16 2) (field D 38 2) (field D 115 2) (field D 123 2) D.length) := by
  refine (withDatagram_some h _).trans ?_
  rw [withField_of_le (by simp only; omega), withField_of_le (by simp only; omega),
    withField_of_le (by simp only; omega), withField_of_le (by simp only; omega)]

theorem exec_v6StartCode (h : s.rx = some D) (hlen : 126 ≤ D.length) :
    exec .v6StartCode s = checked s D .badStartCode (startCodeOk (field D 125 1)) :=
  (withDatagram_some h _).trans (withField_of_le (f := wire.startCode) hlen _)

theorem exec_xExtract (h : s.rx = some D) (hlo : 127 ≤ D.length) (hhi : D.length ≤ 638) :
    exec .xExtract s = .next { s with
      frame := some
        { univ := BitVec.ofNat 16 (field D 113 2), seq := BitVec.ofNat 8 (field D 111 1)
          len := BitVec.ofNat 10 (D.length - 126), ch := D.drop 126 } } := by
  refine (withDatagram_some h _).trans ?_
  rw [withField_of_le (by simp only; omega), withField_of_le (by simp only; omega)]
  exact if_pos ⟨hlo, hhi⟩

/-! ## The obligations -/

/-- Settles O9: the length is all V1 reads. -/
theorem minLenCheck : Obligations.MinLenCheck := by
  intro s D h
  rw [exec_v1MinLen h, checked_eq_ite (minLenOk_iff _)]
  simp only [← Nat.not_lt, ite_not]
  rfl

/-- Settles O10: the vector as a number is the one expected exactly when its bytes are. -/
theorem vectorChecks : Obligations.VectorChecks := by
  intro s D h
  refine ⟨fun hlen => ?_, fun hlen => ?_, fun hlen => ?_⟩
  · rw [exec_v2RootVec h hlen]
    exact checked_eq_ite ((rootVecOk_iff _).trans (field_eq_iff_bytes hlen (by decide))) s D _
  · rw [exec_v3FrameVec h hlen]
    exact checked_eq_ite ((frameVecOk_iff _).trans (field_eq_iff_bytes hlen (by decide))) s D _
  · rw [exec_v4DmpVec h hlen]
    exact checked_eq_ite ((dmpVecOk_iff _).trans (field_eq_iff_bytes hlen (by decide))) s D _

/-- Settles O11: the four fields read as their two bytes, compared with `N` by `lengthsOk_iff`. -/
theorem lengthsCheck : Obligations.LengthsCheck := by
  intro s D h hlen
  rw [exec_v5Lengths h hlen, checked_eq_ite (lengthsOk_iff _ _ _ _ _), field_two_eq_getD (by omega),
    field_two_eq_getD (by omega), field_two_eq_getD (by omega), field_two_eq_getD (by omega)]
  rfl

/-- Settles O12: byte 125 is both what V6 tests and what it reports. -/
theorem startCodeCheck : Obligations.StartCodeCheck := by
  intro s D b h hb
  obtain ⟨hlen, hbyte⟩ := List.getElem?_eq_some_iff.1 hb
  have hfield : field D 125 1 = b.toNat := by rw [field_one hlen, hbyte]
  have hzero : startCodeOk (field D 125 1) = true ↔ b = 0x00 := by
    rw [startCodeOk_iff, hfield, ← BitVec.toNat_inj]
    rfl
  have hinfo : malformedInfo D .badStartCode = b.setWidth 16 := by
    rw [← BitVec.ofNat_toNat, ← hfield]
    rfl
  rw [exec_v6StartCode h hlen, checked_eq_ite hzero, hinfo]
  rfl

/-- Settles O13: the numbers X reads, as words, are the bytes they were read from. -/
theorem extractWritesFrame : Obligations.ExtractWritesFrame := by
  intro s D h hlo hhi
  rw [exec_xExtract h hlo hhi, field_two_eq_getD (by omega), field_one_eq_getD (by omega), ofNat_bytes_eq_append,
    BitVec.ofNat_toNat, BitVec.setWidth_eq]

end Sys2Proof.Machine
end

section
/-! PROOFS. The Dispatch Pipeline's stages one by one (41_dispatch_pipeline.md R120 to R127): what each answers on the
registers it reads, the arithmetic of the sequence window, and the events of the forwards over the list S4 left. -/

open Sys2Proof.Claims

namespace Sys2Proof.Machine

/-! ## The end of a step -/

/-- A silent end adds no event to the record (42_datagram_step.md R154). -/
theorem State.endStep_eq_ended (s : State) (v : Verdict) : s.endStep v = s.ended v [] := by
  rw [State.ended, List.append_nil]
  rfl

/-- Too few channels: one report, with the channels there were as its info (60_exceptions.md R171, R175, R177). -/
theorem State.raise_insufficient (s : State) (have_ need : Nat) :
    s.raise (.insufficient have_ need) =
      s.ended (.insufficient have_ need) [.report ⟨0x5#4, 1#1, BitVec.ofNat 16 have_⟩] := rfl

/-- The forwards followed by the end of the step: their events are the step's last, and only the count of free answers
moves besides. -/
theorem State.forward_endStep (s : State) (ts : List Triple) (v : Verdict) :
    (s.forward ts).endStep v =
      (s.ended v (forwardEvents s.cfg.devErrAbort s.oracle ts 0)).drawing (s.forward ts).draws := rfl

/-! ## The sequence window (R121, R122) -/

/-- The 8-bit subtraction is the difference modulo 256. -/
theorem toNat_seqDelta (q last : Byte) : (seqDelta q last).toNat = Reference.delta q last := by
  rw [seqDelta, BitVec.toNat_sub, Reference.delta]
  omega

theorem delta_eq_ite (q last : Byte) : Reference.delta q last =
    if last.toNat ≤ q.toNat then q.toNat - last.toNat else q.toNat + 256 - last.toNat := by
  have hq := q.isLt
  have hl := last.isLt
  rw [Reference.delta]
  split <;> omega

theorem inWindow_iff (w d : Byte) : inWindow w d = true ↔ 1 ≤ d.toNat ∧ d.toNat ≤ w.toNat := by
  rw [inWindow, Bool.and_eq_true, decide_eq_true_eq, decide_eq_true_eq]

/-- Bit 7 of a byte is clear exactly for the numbers below 128. -/
theorem getLsbD_seven_eq_false_iff (d : Byte) : d.getLsbD 7 = false ↔ d.toNat ≤ 127 := by
  have hmsb : d.getLsbD 7 = decide (128 ≤ d.toNat) := (BitVec.msb_eq_getLsbD_last d).symm.trans (BitVec.msb_eq_decide d)
  rw [hmsb, decide_eq_false_iff_not]
  omega

theorem one_le_toNat_iff (d : Byte) : 1 ≤ d.toNat ↔ d ≠ 0 := by
  rw [Nat.one_le_iff_ne_zero, ne_eq, ne_eq, ← BitVec.toNat_inj]
  rfl

theorem accepts_none (cfg : Cfg) (q : Byte) : Reference.accepts cfg none q = true := rfl

/-- After a first frame the reference's verdict is the machine's window test. -/
theorem accepts_some (cfg : Cfg) (last q : Byte) :
    Reference.accepts cfg (some last) q = inWindow cfg.seqWindow (seqDelta q last) := by
  rw [Reference.accepts, inWindow, toNat_seqDelta]

/-! ## Each stage on registers that hold a value -/

section

variable {s : State} {f : FrameRegs}

theorem exec_s1UFilter (h : s.frame = some f) :
    exec .s1UFilter s =
      if f.univ = s.cfg.targetUniverse then .next s else .next (s.endStep .dropUniverse) :=
  withFrame_some h _

/-- An unseen universe: the frame is accepted whatever its number. -/
theorem exec_s2Seq_first (h : s.frame = some f) (hr : usRead s.us f.univ = none) :
    exec .s2Seq s = .next (s.accept f) := by
  refine (withFrame_some h _).trans ?_
  rw [hr]

/-- A universe last seen at `last`: the window decides. -/
theorem exec_s2Seq_later {last : Byte} (h : s.frame = some f) (hr : usRead s.us f.univ = some last) :
    exec .s2Seq s =
      if inWindow s.cfg.seqWindow (seqDelta f.seq last) then .next (s.accept f)
      else .next (s.endStep (.dropSeq (seqDelta f.seq last))) := by
  refine (withFrame_some h _).trans ?_
  rw [hr]

theorem exec_s3LenChk (h : s.frame = some f) :
    exec .s3LenChk s =
      if f.len.toNat < 3 * s.cfg.pixelCount.toNat then
        .next (s.raise (.insufficient f.len.toNat (3 * s.cfg.pixelCount.toNat)))
      else .next s :=
  withFrame_some h _

theorem exec_s4Map {ts : List Triple} (h : s.frame = some f)
    (hts : mapPixels f.ch s.cfg.pixelCount.toNat 0 = some ts) :
    exec .s4Map s =
      .next { s with triples := some ts, i := BitVec.ofNat 16 (s.cfg.pixelCount.toNat - 1) } := by
  refine (withFrame_some h _).trans ?_
  rw [hts]

theorem exec_s5Forward {ts : List Triple} (h : s.triples = some ts) (hlen : s.cfg.pixelCount.toNat ≤ ts.length) :
    exec .s5Forward s = .next ((s.forward (ts.take s.cfg.pixelCount.toNat)).endStep
      (.applied (failedPixels
        (forwardEvents s.cfg.devErrAbort s.oracle (ts.take s.cfg.pixelCount.toNat) 0)))) :=
  (withTriples_some h _).trans (if_neg (Nat.not_lt.2 hlen))

end

/-! ## The forwards over the configured pixels of a list of triples (R125) -/

section

variable {abort : Bool} {dev : Nat → Answer} {ts : List Triple} {n j : Nat}

/-- An attempted pixel is one of the first `n`, so cutting the list there does not change its triple. -/
theorem getElem?_take_of_attempted (hj : j ∈ List.range (Reference.attempted abort dev n)) :
    (ts.take n)[j]? = ts[j]? :=
  List.getElem?_take_of_lt (Nat.lt_of_lt_of_le (List.mem_range.1 hj) (attempted_le abort dev n))

theorem forwardEvents_take (hn : n ≤ ts.length) : forwardEvents abort dev (ts.take n) 0 =
    (List.range (Reference.attempted abort dev n)).flatMap (tripleEvents ts dev) := by
  rw [forwardEvents_eq abort dev dev (ts.take n) 0 (fun j => by rw [Nat.zero_add]), List.length_take_of_le hn]
  refine List.flatMap_congr fun j hj => ?_
  rw [getElem?_take_of_attempted hj, tripleEvents]
  cases ts[j]? <;> rfl

theorem failedPixels_forwardEvents_take (hn : n ≤ ts.length) :
    failedPixels (forwardEvents abort dev (ts.take n) 0) =
      (List.range (Reference.attempted abort dev n)).filterMap fun k =>
        if dev k = .err then ts[k]?.map Triple.pix else none := by
  rw [failedPixels_forwardEvents abort dev dev (ts.take n) 0 (fun j => by rw [Nat.zero_add]),
    List.length_take_of_le hn]
  refine List.filterMap_congr fun j hj => ?_
  rw [getElem?_take_of_attempted hj]

end

/-! ## The obligations -/

/-- Settles O14: S1's two branches, the drop being a silent end. -/
theorem universeFilter : Obligations.UniverseFilter := by
  intro s f h
  rw [exec_s1UFilter h, State.endStep_eq_ended, apply_ite Host.Outcome.next]

/-- Settles O15: an unseen universe accepts, a seen one by the window test; the write is read back by `usRead_usWrite`. -/
theorem sequenceFilter : Obligations.SequenceFilter := by
  intro s f h
  have written : ∀ u : U16, usRead (usWrite s.us f.univ f.seq) u = if u = f.univ then some f.seq else usRead s.us u :=
    fun u => usRead_usWrite s.us f.univ u f.seq
  cases hr : usRead s.us f.univ with
  | none =>
    rw [accepts_none, if_pos rfl]
    exact ⟨_, exec_s2Seq_first h hr, written⟩
  | some last =>
    rw [accepts_some, exec_s2Seq_later h hr]
    by_cases hw : inWindow s.cfg.seqWindow (seqDelta f.seq last) = true
    · rw [if_pos hw, if_pos hw]
      exact ⟨_, rfl, written⟩
    · rw [if_neg hw, if_neg hw]
      refine ⟨last, rfl, ?_⟩
      rw [State.endStep_eq_ended, ← toNat_seqDelta, BitVec.ofNat_toNat, BitVec.setWidth_eq]

/-- Settles O16: the delta as a number, and the window 127 as the numbers from 1 that bit 7 does not reach. -/
theorem deltaArithmetic : Obligations.DeltaArithmetic := by
  refine ⟨fun q s => (toNat_seqDelta q s).trans (delta_eq_ite q s), fun d => ?_, inWindow_iff, by decide⟩
  rw [inWindow_iff, one_le_toNat_iff, getLsbD_seven_eq_false_iff]
  rfl

/-- Settles O17: S3's two branches, the error carrying `F.LEN` itself as its info. -/
theorem channelCountCheck : Obligations.ChannelCountCheck := by
  intro s f h
  rw [exec_s3LenChk h, State.raise_insufficient, BitVec.ofNat_toNat, apply_ite Host.Outcome.next]

/-- Settles O18: the mapper from pixel 0 on, by `mapPixels_some`. -/
theorem mapperBuildsTriples : Obligations.MapperBuildsTriples := by
  intro s f h hlen
  obtain ⟨ts, hts, htl, hall⟩ := mapPixels_some f.ch s.cfg.pixelCount.toNat 0 (by rwa [Nat.zero_add])
  simp only [Nat.zero_add] at hall
  exact ⟨ts, _, exec_s4Map h hts, htl, hall⟩

/-- Settles O19: the end of the forwards, with the events and the failed pixels read off the attempted ones. -/
theorem forwardCallsEveryPixel : Obligations.ForwardCallsEveryPixel := by
  intro s ts h hlen
  refine ⟨(s.forward (ts.take s.cfg.pixelCount.toNat)).draws, _, ?_, failedPixels_forwardEvents_take hlen⟩
  rw [exec_s5Forward h hlen, State.forward_endStep, forwardEvents_take hlen]

end Sys2Proof.Machine
end

section
/-! PROOFS. The datagram step against the rule's step function (42_datagram_step.md R150): presenting a datagram is running
the twelve operations over its own bytes, each way these can end shows what the reference answers, and so does the whole. -/

open Sys2Proof.Claims

namespace Sys2Proof

/-- R82 for a frame with 1..512 channels: the canonical datagram passes every check and carries that frame. -/
theorem decode_encodeFrame {f : DataFrame} (h : f.WellFormed = true) :
    decode (encodeFrame f.univ f.seq f.data) = .ok f := by
  simp only [DataFrame.WellFormed, Bool.and_eq_true, decide_eq_true_eq] at h
  obtain ⟨hlo, hhi⟩ := h
  have hcounts : lengthsOk (flagsLength (126 + f.data.length - 16) % 65536)
      (flagsLength (126 + f.data.length - 38) % 65536) (flagsLength (126 + f.data.length - 115) % 65536)
      ((126 + f.data.length - 125) % 65536) (126 + f.data.length) = true := by
    rw [lengthsOk_iff, flagsLength_low (by omega), flagsLength_low (by omega), flagsLength_low (by omega)]
    omega
  have hframe : frameOf (encodeFrame f.univ f.seq f.data) = f := by
    rw [frameOf_eq_iff (by rw [encodeFrame_length]; omega)]
    exact ⟨encodeFrame_universe .., encodeFrame_seq .., (encodeFrame_channels f.univ f.seq f.data).symm⟩
  rw [decode_of_long (by rw [encodeFrame_length]; omega), encodeFrame_rootVec, encodeFrame_frameVec,
    encodeFrame_dmpVec, encodeFrame_rootFlen, encodeFrame_frameFlen, encodeFrame_dmpFlen, encodeFrame_pvc,
    encodeFrame_startCode, encodeFrame_length, hframe]
  simp only [ne_eq, not_true_eq_false, if_false, hcounts]

end Sys2Proof

namespace Sys2Proof.Machine

/-! ## The step is the twelve operations over the datagram's own bytes -/

/-- Under a legal configuration a decodable datagram ends as its frame's dispatch, whether its own bytes are run or the
canonical ones of its frame (30_encoding.md R76). -/
theorem runPresented_ok {s : State} {D : Datagram} {f : DataFrame} (hl : s.cfg.legal = true) (h : decode D = .ok f) :
    runPresented D s = .next (s.dispatched f) := by
  have hi : decodeInstr D = .ok (.e131Data f.univ f.seq f.data) := by rw [decodeInstr, h]
  rw [runPresented, hi]
  exact runDatagram_result hl (decode_encodeFrame (decode_wellFormed h))

theorem runPresented_error {s : State} {D : Datagram} {r : Malformed} (hl : s.cfg.legal = true)
    (h : decode D = .error r) :
    runPresented D s = .next ((s.receive D).raise (.malformed r (malformedInfo D r))) := by
  have hi : decodeInstr D = .error r := by rw [decodeInstr, h]
  rw [runPresented, hi]
  exact runDatagram_error hl h

/-! ## The forwards of the triples the mapper made (R124, R125) -/

section

variable {abort : Bool} {dev : Nat → Answer} {data : List Byte} {ts : List Triple} {n : Nat}

/-- The triple of a pixel whose three channels exist. -/
theorem getElem?_of_mapPixels (hn : 3 * n ≤ data.length) (hts : mapPixels data n 0 = some ts) {j : Nat} (hj : j < n) :
    ts[j]? = some ⟨data.getD (3 * j) 0, data.getD (3 * j + 1) 0, data.getD (3 * j + 2) 0, BitVec.ofNat 16 j⟩ := by
  obtain ⟨ts', hts', -, hall⟩ := mapPixels_some data n 0 (by rwa [Nat.zero_add])
  obtain rfl : ts = ts' := Option.some.inj (hts.symm.trans hts')
  obtain ⟨r, g, b, hr, hg, hb, ht⟩ := hall j hj
  rw [Nat.zero_add] at hr hg hb ht
  simp only [ht, List.getD_eq_getElem?_getD, hr, hg, hb, Option.getD_some]

theorem length_of_mapPixels (hn : 3 * n ≤ data.length) (hts : mapPixels data n 0 = some ts) : ts.length = n := by
  obtain ⟨ts', hts', hlen, -⟩ := mapPixels_some data n 0 (by rwa [Nat.zero_add])
  rwa [Option.some.inj (hts.symm.trans hts')]

/-- A mapped pixel's events are the reference's. -/
theorem tripleEvents_eq_pixelEvents (hn : 3 * n ≤ data.length) (hts : mapPixels data n 0 = some ts) {j : Nat}
    (hj : j < n) : tripleEvents ts dev j = Reference.pixelEvents data dev j := by
  rw [tripleEvents, getElem?_of_mapPixels hn hts hj, Reference.pixelEvents]
  by_cases he : dev j = .err
  · rw [if_pos he]
    simp only [he, if_true]
    rfl
  · rw [if_neg he]
    simp only [he, if_false]
    rfl

theorem forwardEvents_eq_forwards (hn : 3 * n ≤ data.length) (hts : mapPixels data n 0 = some ts) :
    forwardEvents abort dev ts 0 = Reference.forwards abort dev data n := by
  have hlen := length_of_mapPixels hn hts
  rw [← List.take_of_length_le hlen.le, forwardEvents_take hlen.ge, Reference.forwards]
  exact List.flatMap_congr fun j hj =>
    tripleEvents_eq_pixelEvents hn hts (Nat.lt_of_lt_of_le (List.mem_range.1 hj) (attempted_le abort dev n))

theorem failedPixels_eq_failures (hn : 3 * n ≤ data.length) (hts : mapPixels data n 0 = some ts) :
    failedPixels (forwardEvents abort dev ts 0) = Reference.failures abort dev n := by
  have hlen := length_of_mapPixels hn hts
  rw [← List.take_of_length_le hlen.le, failedPixels_forwardEvents_take hlen.ge, Reference.failures,
    ← List.filterMap_eq_map, List.filterMap_filter]
  refine List.filterMap_congr fun j hj => ?_
  rw [getElem?_of_mapPixels hn hts (Nat.lt_of_lt_of_le (List.mem_range.1 hj) (attempted_le abort dev n))]
  simp only [decide_eq_true_eq]
  rfl

end

/-! ## What each end of a step shows -/

/-- A step that ends in `t` shows `t`'s table, the outcome it ends with and the events `t` holds. -/
theorem State.shows_endStep {s t : State} {us : Reference.Us} {v : Verdict} {es : List Event}
    (hus : ∀ u, usRead t.us u = us u) (hcfg : t.cfg = s.cfg) (hlog : t.log = s.log) (hes : t.events = es) :
    s.shows (t.endStep v) (us, v, es) :=
  ⟨hus, by rw [State.endStep_log, hlog, hes], hcfg, rfl, rfl, rfl, rfl, rfl, rfl, rfl⟩

/-- The two tables of report codes and infos (60_exceptions.md R171) agree on every datagram. -/
theorem report_malformed_eq_rejection (D : Datagram) (r : Malformed) :
    (Raised.malformed r (malformedInfo D r)).report = Reference.rejection D r := by
  cases r with
  | truncated => rfl
  | wrongVector l => cases l <;> rfl
  | lengthMismatch => rfl
  | badStartCode =>
    have hbyte : field D 125 1 = (D.getD 125 0).toNat := by
      by_cases h : 125 < D.length
      · exact field_one_eq_getD h
      · rw [List.getD_eq_default _ _ (by omega), field, List.drop_eq_nil_of_le (by omega)]
        rfl
    rw [Reference.rejection, ← BitVec.ofNat_toNat, ← hbyte]
    rfl

/-- A rejected datagram shows its rejection and the old table (60_exceptions.md R172, R177). -/
theorem State.shows_rejection (s : State) (D : Datagram) (r : Malformed) :
    s.shows ((s.receive D).raise (.malformed r (malformedInfo D r)))
      (usRead s.us, .malformed r, [.report (Reference.rejection D r)]) := by
  rw [← report_malformed_eq_rejection]
  exact State.shows_endStep (fun _ => rfl) rfl rfl rfl

/-- S2's write is the reference's update of its table (R121). -/
theorem usRead_accept_regsOf (s : State) (f : DataFrame) (u : U16) :
    usRead (s.accept (regsOf f)).us u = Reference.recorded (usRead s.us) f u :=
  usRead_usWrite s.us f.univ u f.seq

/-- A frame for the target universe inside the window shows S2's write and either the length error or every forward. -/
theorem State.shows_applied {s : State} {f : DataFrame} (hu : f.univ = s.cfg.targetUniverse)
    (ha : Reference.accepts s.cfg (usRead s.us f.univ) f.seq = true) :
    s.shows (((s.receive []).accept (regsOf f)).applied f)
      (Reference.dispatch s.cfg (usRead s.us) f s.oracle) := by
  have hus := usRead_accept_regsOf (s.receive []) f
  rw [Reference.dispatch, if_neg (not_not_intro hu), if_pos ha, State.applied, State.accept_cfg, State.receive_cfg,
    State.accept_oracle, State.receive_oracle]
  by_cases hn : f.data.length < 3 * s.cfg.pixelCount.toNat
  · rw [if_pos hn, if_pos hn]
    exact State.shows_endStep hus rfl rfl rfl
  · have hn' := Nat.le_of_not_lt hn
    obtain ⟨ts, hts, -, -⟩ := mapPixels_some f.data s.cfg.pixelCount.toNat 0 (by rwa [Nat.zero_add])
    have htr : triplesOf ((s.receive []).accept (regsOf f)) f = ts := by
      rw [triplesOf, State.accept_cfg, State.receive_cfg, hts, Option.getD_some]
    rw [if_neg hn, if_neg hn, htr, failedPixels_eq_failures hn' hts]
    exact State.shows_endStep hus rfl rfl (forwardEvents_eq_forwards hn' hts)

/-- The pipeline shows the reference's `dispatch` (R126) of the frame: each of S1's and S2's branches is one of its own. -/
theorem State.shows_dispatched (s : State) (f : DataFrame) :
    s.shows (s.dispatched f) (Reference.dispatch s.cfg (usRead s.us) f s.oracle) := by
  rw [State.dispatched]
  by_cases hu : f.univ = s.cfg.targetUniverse
  case neg =>
    rw [if_pos hu, Reference.dispatch, if_pos hu]
    exact State.shows_endStep (fun _ => rfl) rfl rfl rfl
  rw [if_neg (not_not_intro hu)]
  cases hr : usRead s.us f.univ with
  | none => exact State.shows_applied hu (by rw [hr, accepts_none])
  | some last =>
    by_cases hw : inWindow s.cfg.seqWindow (seqDelta f.seq last) = true
    · simp only [hw, if_true]
      exact State.shows_applied hu (by rw [hr, accepts_some, hw])
    · have ha : Reference.accepts s.cfg (usRead s.us f.univ) f.seq ≠ true := by rwa [hr, accepts_some]
      have hdelta : BitVec.ofNat 8 (Reference.delta f.seq last) = seqDelta f.seq last := by
        rw [← toNat_seqDelta, BitVec.ofNat_toNat, BitVec.setWidth_eq]
      rw [Reference.dispatch, if_neg (not_not_intro hu), if_neg ha, hr, Option.getD_some, hdelta]
      simp only [hw, Bool.false_eq_true, if_false]
      exact State.shows_endStep (fun _ => rfl) rfl rfl rfl

/-! ## The stimuli still to come -/

@[simp] theorem State.applied_inbox (s : State) (f : DataFrame) : (s.applied f).inbox = s.inbox := by
  rw [State.applied]
  split <;> rfl

/-- The pipeline takes no further stimulus (20_memory.md R49). -/
@[simp] theorem State.dispatched_inbox (s : State) (f : DataFrame) : (s.dispatched f).inbox = s.inbox := by
  rw [State.dispatched]
  split
  · rfl
  · split
    · rw [State.applied_inbox, State.accept_inbox, State.receive_inbox]
    · split
      · rw [State.applied_inbox, State.accept_inbox, State.receive_inbox]
      · rfl

/-! ## The obligation -/

/-- Settles O22: the decoder, which the machine and the reference share, tells the two cases apart; each ends the step in a
state that shows the reference's answer. -/
theorem stepIsTheDatagramStep : Obligations.StepIsTheDatagramStep := by
  intro s D a rest hl
  rw [step_datagram, Reference.step]
  cases hd : decode D with
  | error r => exact ⟨_, runPresented_error (s := s.taking a rest) hl hd, rfl, (s.taking a rest).shows_rejection D r⟩
  | ok f =>
    exact ⟨_, runPresented_ok (s := s.taking a rest) hl hd, State.dispatched_inbox _ f,
      (s.taking a rest).shows_dispatched f⟩

end Sys2Proof.Machine
end

section
/-! PROOFS. The drops (60_exceptions.md R181). What a datagram's step can end as is said once: a rejection, an accepted
frame's `applied`, or a drop, which only ends the step. The record tells the three apart. -/

namespace Sys2Proof.Machine

/-! ## How a datagram's step can end -/

/-- An illegal configuration refuses a presented datagram whatever its bytes (93_implementation_defined.md U9). -/
theorem runPresented_illegal {s : State} (h : s.cfg.legal = false) (D : Datagram) :
    runPresented D s = .refused .illegalConfiguration := by
  rw [runPresented, decodeInstr]
  cases decode D with
  | error r => exact runDatagram_illegal h D
  | ok f => exact runDatagram_illegal h (encodeFrame f.univ f.seq f.data)

/-- A datagram's step that answers is its rejection or its frame's dispatch (42_datagram_step.md R150). -/
theorem step_datagram_cases {s t : State} {D : Datagram} {a : List Answer} {rest : List Input}
    (h : step { s with inbox := .datagram D a :: rest } = .next t) :
    (∃ r, decode D = .error r ∧ t = ((s.taking a rest).receive D).raise (.malformed r (malformedInfo D r))) ∨
      ∃ f, decode D = .ok f ∧ t = (s.taking a rest).dispatched f := by
  rw [step_datagram] at h
  cases hl : (s.taking a rest).cfg.legal with
  | false => cases (runPresented_illegal hl D).symm.trans h
  | true =>
    cases hd : decode D with
    | error r =>
      cases (runPresented_error hl hd).symm.trans h
      exact .inl ⟨r, rfl, rfl⟩
    | ok f =>
      cases (runPresented_ok hl hd).symm.trans h
      exact .inr ⟨f, rfl, rfl⟩

/-- The two outcomes that drop a well-formed frame (41_dispatch_pipeline.md R120, R121). -/
def Verdict.IsDrop (v : Verdict) : Prop := v = .dropUniverse ∨ ∃ d : Byte, v = .dropSeq d

/-- S1 and S2 end the step with a drop and do nothing else, or the frame is accepted (41_dispatch_pipeline.md R126). -/
theorem State.dispatched_cases (s : State) (f : DataFrame) :
    (∃ v : Verdict, v.IsDrop ∧ s.dispatched f = (s.receive []).endStep v) ∨
      s.dispatched f = ((s.receive []).accept (regsOf f)).applied f := by
  rw [State.dispatched]
  by_cases hu : f.univ = s.cfg.targetUniverse
  case neg => exact .inl ⟨_, .inl rfl, if_pos hu⟩
  rw [if_neg (not_not_intro hu)]
  cases usRead s.us f.univ with
  | none => exact .inr rfl
  | some last =>
    by_cases hw : inWindow s.cfg.seqWindow (seqDelta f.seq last) = true
    · exact .inr (if_pos hw)
    · exact .inl ⟨_, .inr ⟨_, rfl⟩, if_neg hw⟩

/-! ## What the record of each end says -/

/-- A drop is not an exception (60_exceptions.md R181): no raised error is recorded as one. -/
theorem Raised.verdict_not_isDrop (e : Raised) : ¬ e.verdict.IsDrop := by
  cases e <;> simp [Raised.verdict, Verdict.IsDrop]

/-- After an acceptance the step ends as the length error or as `APPLIED`, never as a drop (R123, R125). -/
theorem State.applied_log_not_isDrop (s : State) (f : DataFrame) :
    ∃ (v : Verdict) (es : List Event), ¬ v.IsDrop ∧ (s.applied f).log = s.log ++ [.completed v es] := by
  rw [State.applied]
  split
  · exact ⟨_, _, Raised.verdict_not_isDrop _, State.raise_log ..⟩
  · exact ⟨.applied _, _, by simp [Verdict.IsDrop], State.endStep_log ..⟩

/-- A log grown by one completed step tells which step that was. -/
theorem completed_of_log_eq {log log' : List StepRecord} {v v' : Verdict} {es es' : List Event}
    (h : log' = log ++ [.completed v es]) (h' : log' = log ++ [.completed v' es']) : v = v' ∧ es = es' := by
  simpa using h.symm.trans h'

/-- A datagram's step recorded as a drop is the end of the step on the datagram's arrival, and nothing between. -/
theorem step_datagram_of_isDrop {s t : State} {D : Datagram} {a : List Answer} {rest : List Input} {v : Verdict}
    {es : List Event} (h : step { s with inbox := .datagram D a :: rest } = .next t)
    (hlog : t.log = s.log ++ [.completed v es]) (hv : v.IsDrop) :
    t = ((s.taking a rest).receive []).endStep v ∧ es = [] := by
  obtain ⟨r, -, rfl⟩ | ⟨f, -, rfl⟩ := step_datagram_cases h
  · obtain ⟨rfl, -⟩ := completed_of_log_eq hlog (State.raise_log ..)
    exact absurd hv (Raised.verdict_not_isDrop _)
  · obtain ⟨w, -, hend⟩ | hacc := (s.taking a rest).dispatched_cases f
    · rw [hend] at hlog ⊢
      obtain ⟨rfl, rfl⟩ := completed_of_log_eq hlog (State.endStep_log ..)
      exact ⟨rfl, rfl⟩
    · obtain ⟨w, es', hw, hlog'⟩ := (((s.taking a rest).receive []).accept (regsOf f)).applied_log_not_isDrop f
      obtain ⟨rfl, -⟩ := completed_of_log_eq hlog (hacc ▸ hlog')
      exact absurd hv hw

/-- Settles O42: arriving and ending, all that a dropped datagram's step does, leave the events empty and `US` and the
configuration alone. -/
theorem dropsAreSilent : Obligations.DropsAreSilent := by
  intro s t D a rest v es h hlog hv
  obtain ⟨rfl, hes⟩ := step_datagram_of_isDrop h hlog hv
  exact ⟨hes, rfl, rfl⟩

end Sys2Proof.Machine
end

section
/-! PROOFS. The wire format as a whole (30_encoding.md R69 to R71, R82; 40_frame_decoder.md R99): what the encoder writes
the decoder reads back, what the decoder accepts is the encoder's up to the ignored fields, and how the length alone bears
on the answer. -/

open Sys2Proof.Claims

namespace Sys2Proof

/-! ## The instruction a datagram is -/

/-- A datagram is an instruction exactly where it carries a frame, and is then `E131_DATA` with that frame (R69, R71). -/
theorem decodeInstr_eq_ok_iff {D : Datagram} {i : Instr} :
    decodeInstr D = .ok i ↔ ∃ f, decode D = .ok f ∧ i = .e131Data f.univ f.seq f.data := by
  rw [decodeInstr]
  cases decode D with
  | error r => simp
  | ok f => simp [eq_comm]

theorem decodeInstr_of_decode {D : Datagram} {f : DataFrame} (h : decode D = .ok f) :
    decodeInstr D = .ok (.e131Data f.univ f.seq f.data) :=
  decodeInstr_eq_ok_iff.2 ⟨f, h, rfl⟩

/-- Settles O1: `E131_DATA` alone has bytes, and they carry its operands back by the frame round trip. -/
theorem decodeEncodeRoundTrip : Obligations.DecodeEncodeRoundTrip := by
  intro i b hwf hb
  cases i with
  | e131Data u q d =>
    rw [← Option.some.inj hb]
    exact decodeInstr_of_decode (decode_encodeFrame (f := ⟨u, q, d⟩) hwf)
  | _ => exact absurd hb.symm (Option.some_ne_none b)

/-- Settles O3: the instruction is the accepted frame, whose channel count V5 has bounded. -/
theorem decodedInstrIsWellFormedE131 : Obligations.DecodedInstrIsWellFormedE131 := by
  intro D i h
  obtain ⟨f, hf, rfl⟩ := decodeInstr_eq_ok_iff.1 h
  exact ⟨decode_wellFormed hf, f.univ, f.seq, f.data, rfl⟩

/-- Settles O8: each datagram is closed, and the kernel runs the decoder on it. -/
theorem writtenWordsDecode : Obligations.WrittenWordsDecode := by
  unfold Obligations.WrittenWordsDecode
  decide +kernel

/-! ## One frame, one datagram up to the ignored fields (R76, R82) -/

section

variable {D D' : Datagram} {off n : Nat}

/-- Equal fields have equal bytes: the read loses nothing (20_memory.md R42). -/
theorem getElem?_eq_of_field_eq (h : field D off n = field D' off n) (hD : off + n ≤ D.length)
    (hD' : off + n ≤ D'.length) {k : Nat} (hlo : off ≤ k) (hhi : k < off + n) : D[k]? = D'[k]? := by
  have hlen : ((D.drop off).take n).length = ((D'.drop off).take n).length := by
    rw [fieldBytes_length hD, fieldBytes_length hD']
  have hbytes := congrArg (·[k - off]?) (foldl_bytes_inj hlen h).2
  simpa only [List.getElem?_take_of_lt (show k - off < n by omega), List.getElem?_drop,
    Nat.add_sub_cancel' hlo] using hbytes

end

section

variable {D D' : Datagram} {f : DataFrame}

/-- The length of an accepted datagram is its frame's (R64). -/
theorem length_of_decode_eq_ok (h : decode D = .ok f) : D.length = 126 + f.data.length := by
  obtain ⟨hlo, -, -, -, -, -, -, rfl⟩ := decode_eq_ok h
  have hdata : (frameOf D).data.length = D.length - 126 := List.length_drop
  omega

/-- Each flags-and-length field of an accepted datagram counts the bytes from itself on (R67). -/
theorem lowLength_of_decode_eq_ok (h : decode D = .ok f) {o : Nat} (ho : o ∈ lengthOffsets) :
    field D o 2 % 4096 = D.length - o := by
  obtain ⟨-, -, -, -, -, hcounts, -, -⟩ := decode_eq_ok h
  obtain ⟨hrl, hfl, hdl, -⟩ := (lengthsOk_iff ..).1 hcounts
  simp only [lengthOffsets, List.mem_cons, List.not_mem_nil, or_false] at ho
  obtain rfl | rfl | rfl := ho
  · exact hrl
  · exact hfl
  · exact hdl

/-- The bytes the block reads are the required vectors and start code, the count the length gives, and the frame's own. -/
theorem getElem?_eq_of_decode_eq_ok (h : decode D = .ok f) (h' : decode D' = .ok f) {k : Nat}
    (hk : readOffset k = true) : D[k]? = D'[k]? := by
  have hlen : D.length = D'.length := (length_of_decode_eq_ok h).trans (length_of_decode_eq_ok h').symm
  obtain ⟨hlo, -, hroot, hframe, hdmp, hcounts, hstart, hf⟩ := decode_eq_ok h
  obtain ⟨-, -, hroot', hframe', hdmp', hcounts', hstart', hf'⟩ := decode_eq_ok h'
  obtain ⟨-, -, -, hpvc, -⟩ := (lengthsOk_iff ..).1 hcounts
  obtain ⟨-, -, -, hpvc', -⟩ := (lengthsOk_iff ..).1 hcounts'
  obtain ⟨hu, hq, hd⟩ := (frameOf_eq_iff (by omega) f).1 hf.symm
  obtain ⟨hu', hq', hd'⟩ := (frameOf_eq_iff (by omega) f).1 hf'.symm
  have bytes : ∀ {off n v : Nat}, field D off n = v → field D' off n = v → off + n ≤ 126 → off ≤ k → k < off + n →
      D[k]? = D'[k]? := fun hv hv' hle => getElem?_eq_of_field_eq (hv.trans hv'.symm) (by omega) (by omega)
  simp only [readOffset, Bool.or_eq_true, Bool.and_eq_true, decide_eq_true_eq, beq_iff_eq] at hk
  obtain (((((hk | hk) | hk) | hk) | hk) | hk) := hk
  · exact bytes hroot hroot' (by omega) hk.1 (by omega)
  · exact bytes hframe hframe' (by omega) hk.1 (by omega)
  · exact bytes hq hq' (by omega) hk.ge (by omega)
  · exact bytes hu hu' (by omega) hk.1 (by omega)
  · exact bytes hdmp hdmp' (by omega) hk.ge (by omega)
  by_cases hcount : k < 125
  · exact bytes hpvc (hpvc'.trans (by rw [hlen])) (by omega) hk hcount
  by_cases hcode : k < 126
  · exact bytes hstart hstart' (by omega) (by omega) hcode
  · have hchannel : (D.drop 126)[k - 126]? = (D'.drop 126)[k - 126]? := by rw [← hd, ← hd']
    simpa only [List.getElem?_drop, Nat.add_sub_cancel' (Nat.le_of_not_lt hcode)] using hchannel

/-- Two datagrams that carry one frame agree on all that the block reads. The converse of `SameButIgnored.decode_eq`. -/
theorem sameButIgnored_of_decode_eq_ok (h : decode D = .ok f) (h' : decode D' = .ok f) : SameButIgnored D D' := by
  have hlen : D.length = D'.length := (length_of_decode_eq_ok h).trans (length_of_decode_eq_ok h').symm
  refine ⟨hlen, fun k hk => getElem?_eq_of_decode_eq_ok h h' hk, fun o ho => ?_⟩
  rw [lowLength_of_decode_eq_ok h ho, lowLength_of_decode_eq_ok h' ho, hlen]

end

/-- Settles O2: the converse holds because both datagrams carry one frame; byte for byte it fails on the template with
its flags nibbles clear, whose byte 16 is `0x00` where the encoder writes `0x70`. -/
theorem frameRoundTripAndConverse : Obligations.FrameRoundTripAndConverse := by
  refine ⟨fun u q d hlo hhi => ?_, fun D f h => ?_, ?_⟩
  · exact decode_encodeFrame (f := ⟨u, q, d⟩) (by simp [DataFrame.WellFormed, hlo, hhi])
  · exact sameButIgnored_of_decode_eq_ok (decode_encodeFrame (decode_wellFormed h)) h
  · exact ⟨writtenDatagram 0x00 0x04 0x00, ⟨1, 11, [10, 20, 30]⟩, by decide +kernel, by decide +kernel⟩

/-! ## The declared counts (R67) -/

theorem dg_encodeFrame {u : U16} {q : Byte} {d : List Byte} {off n v : Nat} (hle : off + n ≤ 126)
    (h : field (encodeFrame u q d) off n = v) : dg (encodeFrame u q d) off n = some v :=
  (dg_eq_some_iff (by rw [encodeFrame_length]; omega)).2 h

/-- Settles O7: the counts are V5's equalities; the canonical fields are the encoder's values at the two lengths. -/
theorem declaredCountsOfAcceptedDatagram : Obligations.DeclaredCountsOfAcceptedDatagram := by
  refine ⟨fun D f h => ?_, fun u q d hd => ?_, fun u q d hd => ?_⟩
  · have hlen := length_of_decode_eq_ok h
    obtain ⟨hlo, -, -, -, -, hcounts, -, -⟩ := decode_eq_ok h
    obtain ⟨hrl, hfl, hdl, hpvc, -⟩ := (lengthsOk_iff ..).1 hcounts
    refine ⟨_, _, _, _, dg_of_le (by omega), dg_of_le (by omega), dg_of_le (by omega), dg_of_le (by omega), ?_⟩
    omega
  all_goals
    exact ⟨dg_encodeFrame (by decide) (by rw [encodeFrame_rootFlen, hd]; rfl),
      dg_encodeFrame (by decide) (by rw [encodeFrame_frameFlen, hd]; rfl),
      dg_encodeFrame (by decide) (by rw [encodeFrame_dmpFlen, hd]; rfl),
      dg_encodeFrame (by decide) (by rw [encodeFrame_pvc, hd])⟩

/-! ## The answer by length (40_frame_decoder.md R99) -/

/-- Past V1, a length that leaves no channel or more than 512 fails V5 at the latest (R94). -/
theorem decode_of_no_frame_length {D : Datagram} (h : D.length = 126 ∨ 639 ≤ D.length) : decode D =
    if field D 18 4 ≠ 4 then .error (.wrongVector .root)
    else if field D 40 4 ≠ 2 then .error (.wrongVector .framing)
    else if field D 117 1 ≠ 2 then .error (.wrongVector .dmp)
    else .error .lengthMismatch := by
  have hcounts : ¬ lengthsOk (field D 16 2) (field D 38 2) (field D 115 2) (field D 123 2) D.length = true := by
    rw [lengthsOk_iff]
    omega
  rw [decode_of_long (by omega), if_pos hcounts]

/-- A field inside the first bytes reads there as in the whole. -/
theorem field_take {D : Datagram} {off n m : Nat} (h : off + n ≤ m) : field (D.take m) off n = field D off n :=
  field_congr fun k hk => List.getElem?_take_of_lt (by omega)

/-- Settles O5: each range of lengths by the first failing check, the accepted one by the clauses of R97. -/
theorem behaviourByLength : Obligations.BehaviourByLength := by
  intro D
  obtain ⟨-, hroot, hframing, hdmp, hlengths, hstart, hok⟩ := rejectionReasonsAndPriority D
  refine ⟨fun h => decode_of_short (by omega), fun h => ?_, fun hlo hhi => ?_, fun h => ?_⟩
  · simp (disch := omega) only [ne_eq, dg_eq_some_iff]
    exact decode_of_no_frame_length h
  · have hlong : 126 ≤ D.length := by omega
    refine ⟨fun h2 => hroot.2 ⟨hlong, h2⟩, fun h2 h3 => hframing.2 ⟨hlong, h2, h3⟩,
      fun h2 h3 h4 => hdmp.2 ⟨hlong, h2, h3, h4⟩, fun h2 h3 h4 => ⟨fun h5 => hlengths.2 ⟨hlong, h2, h3, h4, h5⟩,
        fun h5 h6 => hstart.2 ⟨hlong, h2, h3, h4, h5, h6⟩, fun h5 h6 => ⟨frameOf D, ?_, List.length_drop⟩⟩⟩
    obtain ⟨hu, hq, hd⟩ := (frameOf_eq_iff (by omega) (frameOf D)).1 rfl
    exact (hok _).2 ⟨hlong, h2, h3, h4, h5, h6, (dg_eq_some_iff (by omega)).2 hu, (dg_eq_some_iff (by omega)).2 hq, hd⟩
  · have htake : (D.take 639).length = 639 := List.length_take_of_le h
    rw [decode_of_no_frame_length (.inr h), decode_of_no_frame_length (.inr htake.ge), field_take (by decide),
      field_take (by decide), field_take (by decide)]

end Sys2Proof
end

section
/-! PROOFS. One step, whatever the stimulus (42_datagram_step.md R150, R151; 70_reset_and_hazards.md R200 to R203): what
each stimulus is answered with, and all that an answered step can have been. -/

namespace Sys2Proof.Machine

/-! ## A presented datagram -/

/-- Settles O25: an accepted datagram ends as its frame's dispatch on either side; a rejected one runs the same
operations. -/
theorem twelveOperationsAreTheStep : Obligations.TwelveOperationsAreTheStep := by
  intro D s
  cases hl : s.cfg.legal with
  | false => rw [runPresented_illegal hl, runDatagram_illegal hl]
  | true =>
    cases hd : decode D with
    | error r => rw [runPresented_error hl hd, runDatagram_error hl hd]
    | ok f => rw [runPresented_ok hl hd, runDatagram_result hl hd]

/-- `E131_DATA` is its canonical datagram presented (30_encoding.md R80, R81; log entry 14). -/
theorem exec_e131Data (u : U16) (q : Byte) (d : List Byte) (s : State) :
    exec (.e131Data u q d) s = runPresented (encodeFrame u q d) s :=
  (twelveOperationsAreTheStep (encodeFrame u q d) s).symm

/-- Under a legal configuration a presented datagram is answered, and with the reference's step (R150). -/
theorem runPresented_legal {s : State} (hl : s.cfg.legal = true) (D : Datagram) :
    ∃ t, runPresented D s = .next t ∧ t.inbox = s.inbox ∧
      s.shows t (Reference.step s.cfg (usRead s.us) D s.oracle) := by
  rw [Reference.step]
  cases hd : decode D with
  | error r => exact ⟨_, runPresented_error hl hd, rfl, s.shows_rejection D r⟩
  | ok f => exact ⟨_, runPresented_ok hl hd, s.dispatched_inbox f, s.shows_dispatched f⟩

theorem legal_of_runPresented {s t : State} {D : Datagram} (h : runPresented D s = .next t) : s.cfg.legal = true := by
  by_contra hl
  cases (runPresented_illegal (Bool.eq_false_of_not_eq_true hl) D).symm.trans h

/-- Whatever a presented datagram is answered with shows the reference's step. -/
theorem runPresented_shows {s t : State} {D : Datagram} (h : runPresented D s = .next t) :
    t.inbox = s.inbox ∧ s.shows t (Reference.step s.cfg (usRead s.us) D s.oracle) := by
  obtain ⟨t', h', hshows⟩ := runPresented_legal (legal_of_runPresented h) D
  cases h.symm.trans h'
  exact hshows

/-! ## What each stimulus is answered with -/

section

variable {s : State} {D : Datagram} {a : List Answer} {kept : Nat} {st : Straps} {rest : List Input}

theorem step_of_idle (hin : s.inbox = []) : step s = .next s := by
  rw [step, runInput, hin]

theorem step_of_datagram (hin : s.inbox = .datagram D a :: rest) : step s = runPresented D (s.taking a rest) := by
  rw [step, runInput, hin]

theorem step_of_reset (hin : s.inbox = .reset st :: rest) :
    step s = .next ((s.taking s.answers rest).takeReset st) := by
  rw [step, runInput, hin]

/-- A reset that cuts a step comes after it (R203). -/
theorem step_of_cut {t : State} (hin : s.inbox = .cutByReset D a kept st :: rest)
    (h : runPresented D (s.taking a rest) = .next t) : step s = .next (t.cutBy kept st) := by
  rw [step, runInput, hin]
  simp only [h]

/-- Where the step is refused its cut is refused with it (log entry 7). -/
theorem step_of_cut_illegal (hin : s.inbox = .cutByReset D a kept st :: rest) (hl : s.cfg.legal = false) :
    step s = .refused .illegalConfiguration := by
  rw [step, runInput, hin]
  simp only [runPresented_illegal (s := s.taking a rest) hl]

end

/-! ## What an answered step can have been -/

/-- The four ways from `s` to a next state, one per head of the inbox. -/
inductive State.Takes (s : State) : State → Prop where
  | idle (hin : s.inbox = []) : s.Takes s
  | datagram {t : State} {D : Datagram} {a : List Answer} {rest : List Input}
      (hin : s.inbox = .datagram D a :: rest) (h : runPresented D (s.taking a rest) = .next t) : s.Takes t
  | reset {st : Straps} {rest : List Input} (hin : s.inbox = .reset st :: rest) :
      s.Takes ((s.taking s.answers rest).takeReset st)
  | cut {t : State} {D : Datagram} {a : List Answer} {kept : Nat} {st : Straps} {rest : List Input}
      (hin : s.inbox = .cutByReset D a kept st :: rest) (h : runPresented D (s.taking a rest) = .next t) :
      s.Takes (t.cutBy kept st)

theorem takes_of_step {s t : State} (h : step s = .next t) : s.Takes t := by
  cases hin : s.inbox with
  | nil =>
    cases (step_of_idle hin).symm.trans h
    exact .idle hin
  | cons x rest =>
    cases x with
    | datagram D a => exact .datagram hin ((step_of_datagram hin).symm.trans h)
    | reset st =>
      cases (step_of_reset hin).symm.trans h
      exact .reset hin
    | cutByReset D a kept st =>
      cases hl : s.cfg.legal with
      | false => cases (step_of_cut_illegal hin hl).symm.trans h
      | true =>
        obtain ⟨u, hu, -⟩ := runPresented_legal (s := s.taking a rest) hl D
        cases (step_of_cut hin hu).symm.trans h
        exact .cut hin hu

/-- The one record a cut step added is the one the cut shortens (R203). -/
theorem State.cutBy_log_of_completed {t : State} {log : List StepRecord} {v : Verdict} {es : List Event}
    (h : t.log = log ++ [.completed v es]) (kept : Nat) (st : Straps) :
    (t.cutBy kept st).log = log ++ [.cut (es.take kept)] := by
  rw [State.cutBy_log, h, cutLast_append]

/-- Settles O29: each way takes the head of the inbox, and only a datagram, cut or not, adds its one record. -/
theorem stimuliAreTakenInOrder : Obligations.StimuliAreTakenInOrder := by
  intro s t h
  cases takes_of_step h with
  | idle hin => exact ⟨by rw [hin, List.tail_nil], [], (List.append_nil _).symm, Nat.zero_le 1⟩
  | datagram hin hp =>
    obtain ⟨hinbox, -, hlog, -⟩ := runPresented_shows hp
    exact ⟨by rw [hinbox, hin]; rfl, _, hlog, le_rfl⟩
  | reset hin => exact ⟨by rw [hin]; rfl, [], (List.append_nil _).symm, Nat.zero_le 1⟩
  | cut hin hp =>
    obtain ⟨hinbox, -, hlog, -⟩ := runPresented_shows hp
    exact ⟨by rw [State.cutBy_inbox, hinbox, hin]; rfl, _, State.cutBy_log_of_completed hlog _ _, le_rfl⟩

/-- Under a legal configuration every stimulus is answered (R150). -/
theorem step_legal {s : State} (hl : s.cfg.legal = true) : ∃ t, step s = .next t := by
  cases hin : s.inbox with
  | nil => exact ⟨_, step_of_idle hin⟩
  | cons x rest =>
    cases x with
    | datagram D a =>
      obtain ⟨t, ht, -⟩ := runPresented_legal (s := s.taking a rest) hl D
      exact ⟨t, (step_of_datagram hin).trans ht⟩
    | reset st => exact ⟨_, step_of_reset hin⟩
    | cutByReset D a kept st =>
      obtain ⟨t, ht, -⟩ := runPresented_legal (s := s.taking a rest) hl D
      exact ⟨_, step_of_cut hin ht⟩

/-- Settles O27: under an illegal configuration the step is refused or needs no datagram; it never faults either. -/
theorem stepIsTotal : Obligations.StepIsTotal := by
  refine ⟨fun s hl => step_legal hl, fun s r h => ?_⟩
  cases hl : s.cfg.legal with
  | true =>
    obtain ⟨t, ht⟩ := step_legal hl
    cases ht.symm.trans h
  | false =>
    cases hin : s.inbox with
    | nil => cases (step_of_idle hin).symm.trans h
    | cons x rest =>
      cases x with
      | datagram D a =>
        cases ((step_of_datagram hin).trans (runPresented_illegal (s := s.taking a rest) hl D)).symm.trans h
      | reset st => cases (step_of_reset hin).symm.trans h
      | cutByReset D a kept st => cases (step_of_cut_illegal hin hl).symm.trans h

end Sys2Proof.Machine
end

section
/-! PROOFS. The table a datagram leaves (41_dispatch_pipeline.md R120, R121), as a function of the configuration, the old
table and the datagram alone, and with it the invariant of step boundaries. -/

namespace Sys2Proof.Machine

/-! ## The table after a datagram -/

/-- Whether S1 and S2 let the frame `f` through, which records its number (41_dispatch_pipeline.md R120, R121). -/
def admits (cfg : Cfg) (us : Reference.Us) (f : DataFrame) : Bool :=
  f.univ = cfg.targetUniverse && Reference.accepts cfg (us f.univ) f.seq

theorem admits_iff (cfg : Cfg) (us : Reference.Us) (f : DataFrame) : admits cfg us f = true ↔
    f.univ = cfg.targetUniverse ∧ Reference.accepts cfg (us f.univ) f.seq = true := by
  rw [admits, Bool.and_eq_true, decide_eq_true_eq]

/-- `US` after the step of `D`: S2's write where the frame is admitted, otherwise as before. -/
def tableAfter (cfg : Cfg) (us : UsTable) (D : Datagram) : UsTable :=
  match decode D with
  | .error _ => us
  | .ok f => if admits cfg (usRead us) f then usWrite us f.univ f.seq else us

theorem tableAfter_of_ok {D : Datagram} {f : DataFrame} (h : decode D = .ok f) (cfg : Cfg) (us : UsTable) :
    tableAfter cfg us D = if admits cfg (usRead us) f then usWrite us f.univ f.seq else us := by
  rw [tableAfter, h]

theorem tableAfter_cases (cfg : Cfg) (us : UsTable) (D : Datagram) : tableAfter cfg us D = us ∨
    ∃ f, decode D = .ok f ∧ admits cfg (usRead us) f = true ∧ tableAfter cfg us D = usWrite us f.univ f.seq := by
  cases hd : decode D with
  | error r => exact .inl (by rw [tableAfter, hd])
  | ok f =>
    rw [tableAfter_of_ok hd]
    cases ha : admits cfg (usRead us) f with
    | false => exact .inl (if_neg Bool.false_ne_true)
    | true => exact .inr ⟨f, rfl, ha, if_pos rfl⟩

@[simp] theorem State.applied_us (s : State) (f : DataFrame) : (s.applied f).us = s.us := by
  rw [State.applied]
  split <;> rfl

theorem State.dispatched_us (s : State) (f : DataFrame) :
    (s.dispatched f).us = if admits s.cfg (usRead s.us) f then usWrite s.us f.univ f.seq else s.us := by
  rw [State.dispatched]
  by_cases hu : f.univ = s.cfg.targetUniverse
  case neg => rw [if_pos hu, if_neg (fun ha => hu ((admits_iff ..).1 ha).1), State.endStep_us, State.receive_us]
  have haccepted : (((s.receive []).accept (regsOf f)).applied f).us = usWrite s.us f.univ f.seq := State.applied_us ..
  rw [if_neg (not_not_intro hu)]
  simp only [admits_iff, hu, true_and]
  rw [← hu]
  cases usRead s.us f.univ with
  | none => exact haccepted
  | some last =>
    rw [accepts_some]
    by_cases hw : inWindow s.cfg.seqWindow (seqDelta f.seq last) = true
    · simp only [hw, if_true]
      exact haccepted
    · simp only [hw, Bool.false_eq_true, if_false]
      rfl

theorem runPresented_us {s t : State} {D : Datagram} (h : runPresented D s = .next t) :
    t.us = tableAfter s.cfg s.us D := by
  have hl := legal_of_runPresented h
  cases hd : decode D with
  | error r =>
    cases (runPresented_error hl hd).symm.trans h
    rw [tableAfter, hd]
    rfl
  | ok f =>
    cases (runPresented_ok hl hd).symm.trans h
    rw [tableAfter_of_ok hd, State.dispatched_us]

/-! ## The invariant of step boundaries -/

theorem usWf_tableAfter {cfg : Cfg} {us : UsTable} {D : Datagram} (h : usWf us = true) :
    usWf (tableAfter cfg us D) = true := by
  obtain heq | ⟨f, -, -, heq⟩ := tableAfter_cases cfg us D
  · rwa [heq]
  · rw [heq]
    exact usWf_usWrite us f.univ f.seq h

/-- Only the target's entry is ever written, since S1 lets no other frame through (10_state.md R29). -/
theorem usRead_tableAfter_of_ne {cfg : Cfg} {us : UsTable} {D : Datagram} {u : U16} (hu : u ≠ cfg.targetUniverse) :
    usRead (tableAfter cfg us D) u = usRead us u := by
  obtain heq | ⟨f, -, ha, heq⟩ := tableAfter_cases cfg us D
  · rw [heq]
  · rw [heq, usRead_usWrite, if_neg (((admits_iff ..).1 ha).1 ▸ hu)]

/-- What a reset leaves is an idle block with an empty table (10_state.md R34; 70_reset_and_hazards.md R201). -/
theorem State.inv_takeReset (s : State) (st : Straps) : (s.takeReset st).Inv :=
  ⟨rfl, fun _ _ => rfl, rfl, rfl, rfl, rfl, rfl, rfl, rfl⟩

/-- Settles O35: the state of reset is a reset taken there. -/
theorem resetHasInvariant : Obligations.ResetHasInvariant :=
  ⟨fun st => (State.resetWith st).inv_takeReset st, State.reset.inv_takeReset _⟩

/-- Settles O34: a datagram writes at most the target's entry and ends its step idle; a reset, cutting or not, empties
all. -/
theorem stepKeepsInvariant : Obligations.StepKeepsInvariant := by
  intro s t hinv h
  cases takes_of_step h with
  | idle => exact hinv
  | datagram _ hp =>
    obtain ⟨hwf, honly, -⟩ := hinv
    obtain ⟨-, -, -, hcfg, hidle⟩ := runPresented_shows hp
    have hus := runPresented_us hp
    refine ⟨?_, fun u hu => ?_, hidle⟩
    · rw [hus]
      exact usWf_tableAfter hwf
    · rw [hcfg] at hu
      rw [hus, usRead_tableAfter_of_ne hu]
      exact honly u hu
  | reset => exact State.inv_takeReset _ _
  | cut => exact State.inv_takeReset _ _

end Sys2Proof.Machine
end

section
/-! PROOFS. What holds of single instructions and stimuli: `E131_DATA` on any operands, refusals and resets, the device's
script, and what no instruction writes. -/

namespace Sys2Proof.Machine

/-! ## `E131_DATA` -/

/-- Settles O20: the canonical datagram of the operands carries their frame, which the step dispatches. -/
theorem e131DataIsDispatch : Obligations.E131DataIsDispatch := by
  intro s u q d hl hlo hhi
  have hd : decode (encodeFrame u q d) = .ok ⟨u, q, d⟩ :=
    decode_encodeFrame (f := ⟨u, q, d⟩) (by simp [DataFrame.WellFormed, hlo, hhi])
  exact ⟨_, runDatagram_result hl hd, s.dispatched_inbox _, s.shows_dispatched _⟩

/-- The canonical bytes of no channel or of more than 512 pass every vector check and fail V5 (R94 corner cases). -/
theorem decode_encodeFrame_illFormed (u : U16) (q : Byte) {d : List Byte} (h : d.length = 0 ∨ 512 < d.length) :
    decode (encodeFrame u q d) = .error .lengthMismatch := by
  rw [decode_of_no_frame_length (by rw [encodeFrame_length]; omega), encodeFrame_rootVec, encodeFrame_frameVec,
    encodeFrame_dmpVec]
  rfl

/-- Settles O21: V5's rejection, with the length as its info. -/
theorem e131DataIllFormedIsRejected : Obligations.E131DataIllFormedIsRejected := by
  intro s u q d hl h
  refine ⟨_, runDatagram_error hl (decode_encodeFrame_illFormed u q h), rfl, rfl, rfl, ?_⟩
  rw [State.raise_log, malformedInfo, encodeFrame_length]
  rfl

/-- Settles O24: the decoder's answer is what the presented datagram is run by. -/
theorem stepRunsDecodedInstr : Obligations.StepRunsDecodedInstr := by
  intro s D a rest i h
  rw [step_datagram, runPresented, h]
  rfl

/-- Settles O26: the refusal comes before any byte is read, and a cut takes it over. -/
theorem illegalConfigurationIsRefused : Obligations.IllegalConfigurationIsRefused := by
  refine ⟨fun c => (Cfg.legal_iff c).trans and_assoc, fun s u q d hl => runDatagram_illegal hl _,
    fun s D a rest hl => runPresented_illegal (s := s.taking a rest) hl D, fun s D a kept st rest hl => ?_⟩
  exact step_of_cut_illegal (s := { s with inbox := .cutByReset D a kept st :: rest }) rfl hl

/-- Settles O23: the sequence's own first answers are such a script. -/
theorem everyAnswerSequenceIsPossible : Obligations.EveryAnswerSequenceIsPossible := by
  intro s dev n
  refine ⟨(List.range n).map dev, fun k hk => ?_⟩
  rw [State.oracle_scripted (by simpa using hk), List.getElem_map, List.getElem_range]

/-! ## Idle and reset -/

/-- Settles O28: with no stimulus there is nothing to take. -/
theorem idleStepChangesNothing : Obligations.IdleStepChangesNothing :=
  fun _ hin => step_of_idle hin

/-- Settles O30: each field of the reset state as R201 gives it. -/
theorem resetLeaves : Obligations.ResetLeaves :=
  ⟨fun _ => ⟨fun _ => rfl, rfl, rfl, rfl, rfl, rfl, rfl, rfl, rfl⟩, rfl⟩

/-- Settles O31: the reset is taken from the head of the inbox. -/
theorem resetStimulus : Obligations.ResetStimulus :=
  fun s st rest => step_of_reset (s := { s with inbox := .reset st :: rest }) rfl

/-- Settles O32: the reset left every universe unseen, and an unseen one admits any number. -/
theorem firstFrameAfterResetIsAccepted : Obligations.FirstFrameAfterResetIsAccepted := by
  intro s st D a rest f hl hd hu
  have hreset := resetStimulus s st (.datagram D a :: rest)
  obtain ⟨t', ht', -⟩ := runPresented_legal
    (s := State.taking { State.resetWith st with inbox := .datagram D a :: rest, log := s.log, draws := s.draws } a rest)
    hl D
  refine ⟨_, t', hreset, ht', fun _ => rfl, ?_⟩
  have hadmits : admits (State.resetWith st).cfg (usRead []) f = true := (admits_iff ..).2 ⟨hu, rfl⟩
  have hus : t'.us = usWrite [] f.univ f.seq := by
    rw [runPresented_us ht', tableAfter_of_ok hd]
    exact if_pos hadmits
  rw [hus, usRead_usWrite, if_pos hu.symm]

/-- Settles O33: the cut keeps the first events of the one record the step added, and then the reset is taken. -/
theorem resetCutsStep : Obligations.ResetCutsStep := by
  intro s D a kept st rest hl
  obtain ⟨t, ht, hinbox, -, hlog, -⟩ := runPresented_legal (s := s.taking a rest) hl D
  refine ⟨t, _, _, _, ht, hlog,
    step_of_cut (s := { s with inbox := .cutByReset D a kept st :: rest }) rfl ht, ?_⟩
  rw [State.cutBy, hlog, cutLast_append, State.takeReset, hinbox]
  rfl

/-! ## What no instruction writes (10_state.md R24, R30) -/

section

variable {s t : State}

theorem withDatagram_next {k : Datagram → Result} (h : withDatagram s k = .next t) :
    ∃ D, s.rx = some D ∧ k D = .next t := by
  cases hrx : s.rx with
  | none => cases (withDatagram_none hrx k).symm.trans h
  | some D => exact ⟨D, rfl, (withDatagram_some hrx k).symm.trans h⟩

theorem withField_next {D : Datagram} {f : WireField} {k : Nat → Result} (h : withField D f k = .next t) :
    k (fieldOf D f) = .next t := by
  by_cases hle : f.off + f.width ≤ D.length
  · exact (withField_of_le hle k).symm.trans h
  · cases (withField_of_lt (Nat.lt_of_not_le hle) k).symm.trans h

theorem withFrame_next {k : FrameRegs → Result} (h : withFrame s k = .next t) : ∃ f, k f = .next t := by
  cases hf : s.frame with
  | none => cases (withFrame_none hf k).symm.trans h
  | some f => exact ⟨f, (withFrame_some hf k).symm.trans h⟩

theorem withTriples_next {k : List Triple → Result} (h : withTriples s k = .next t) : ∃ ts, k ts = .next t := by
  cases hts : s.triples with
  | none => cases (withTriples_none hts k).symm.trans h
  | some ts => exact ⟨ts, (withTriples_some hts k).symm.trans h⟩

/-- The state's table and configuration, the part of it that outlives a step. -/
def State.lasting (s : State) : UsTable × Cfg := (s.us, s.cfg)

/-- A check raises its error or does nothing (60_exceptions.md R177). -/
theorem checked_lasting {D : Datagram} {r : Malformed} {p : Bool} (h : checked s D r p = .next t) :
    t.lasting = s.lasting := by
  rw [checked] at h
  split at h <;> cases h <;> rfl

theorem execXExtract_lasting (h : execXExtract s = .next t) : t.lasting = s.lasting := by
  obtain ⟨D, -, h⟩ := withDatagram_next h
  replace h := withField_next (withField_next h)
  split at h <;> cases h
  rfl

theorem execS1UFilter_lasting (h : execS1UFilter s = .next t) : t.lasting = s.lasting := by
  obtain ⟨f, h⟩ := withFrame_next h
  split at h <;> cases h <;> rfl

theorem execS3LenChk_lasting (h : execS3LenChk s = .next t) : t.lasting = s.lasting := by
  obtain ⟨f, h⟩ := withFrame_next h
  split at h <;> cases h <;> rfl

theorem execS4Map_lasting (h : execS4Map s = .next t) : t.lasting = s.lasting := by
  obtain ⟨f, h⟩ := withFrame_next h
  split at h <;> cases h
  rfl

theorem execS5Forward_lasting (h : execS5Forward s = .next t) : t.lasting = s.lasting := by
  obtain ⟨ts, h⟩ := withTriples_next h
  split at h <;> cases h
  rfl

/-- S2 ends the step or writes the table, and has no other effect (R121). -/
theorem execS2Seq_cfg (h : execS2Seq s = .next t) : t.cfg = s.cfg := by
  obtain ⟨f, h⟩ := withFrame_next h
  split at h
  · cases h
    rfl
  · split at h <;> cases h <;> rfl

/-- No operation but S2, and no instruction but it and the whole step, changes what outlives a step. -/
theorem exec_lasting {i : Instr} (h : exec i s = .next t) (hseq : i ≠ .s2Seq)
    (hwhole : ∀ (u : U16) (q : Byte) (d : List Byte), i ≠ .e131Data u q d) : t.lasting = s.lasting := by
  cases i with
  | e131Data u q d => exact absurd rfl (hwhole u q d)
  | v1MinLen =>
    obtain ⟨D, -, h⟩ := withDatagram_next h
    exact checked_lasting h
  | v2RootVec | v3FrameVec | v4DmpVec | v6StartCode =>
    obtain ⟨D, -, h⟩ := withDatagram_next h
    exact checked_lasting (withField_next h)
  | v5Lengths =>
    obtain ⟨D, -, h⟩ := withDatagram_next h
    exact checked_lasting (withField_next (withField_next (withField_next (withField_next h))))
  | xExtract => exact execXExtract_lasting h
  | s1UFilter => exact execS1UFilter_lasting h
  | s2Seq => exact absurd rfl hseq
  | s3LenChk => exact execS3LenChk_lasting h
  | s4Map => exact execS4Map_lasting h
  | s5Forward => exact execS5Forward_lasting h

end

/-- Settles O36: the table is part of what these operations leave. -/
theorem onlySequenceStageWritesUs : Obligations.OnlySequenceStageWritesUs :=
  fun _ _ _ h hseq hwhole => congrArg Prod.fst (exec_lasting h hseq hwhole)

theorem exec_cfg {i : Instr} {s t : State} (h : exec i s = .next t) : t.cfg = s.cfg := by
  by_cases hseq : i = .s2Seq
  · subst hseq
    exact execS2Seq_cfg h
  by_cases hwhole : ∃ (u : U16) (q : Byte) (d : List Byte), i = .e131Data u q d
  · obtain ⟨u, q, d, rfl⟩ := hwhole
    rw [exec_e131Data] at h
    obtain ⟨-, -, -, hcfg, -⟩ := runPresented_shows h
    exact hcfg
  · exact congrArg Prod.snd (exec_lasting h hseq fun u q d hi => hwhole ⟨u, q, d, hi⟩)

/-- Settles O37: of the four ways a step can go, two take a reset, and the other two leave the configuration. -/
theorem configurationIsConstant : Obligations.ConfigurationIsConstant := by
  refine ⟨fun i s t h => exec_cfg h, fun s t h hne => ?_⟩
  cases takes_of_step h with
  | idle => exact absurd rfl hne
  | datagram _ hp =>
    obtain ⟨-, -, -, hcfg, -⟩ := runPresented_shows hp
    exact absurd hcfg hne
  | reset hin => exact ⟨_, _, .inl hin⟩
  | cut hin => exact ⟨_, _, .inr ⟨_, _, _, hin⟩⟩

end Sys2Proof.Machine
end

section
/-! PROOFS. How one datagram's step bears on the table and what it shows (10_state.md section 5; 42_datagram_step.md
section 8; 60_exceptions.md sections 1, 2): the reference's step ends in one of four ways, and each claim about a record is
read off them. -/

namespace Sys2Proof.Machine

/-! ## The four ends of the reference's step -/

/-- The outcomes of an admitted frame (41_dispatch_pipeline.md R126). -/
def Verdict.IsAccepted (v : Verdict) : Prop := (∃ failed, v = .applied failed) ∨ ∃ n m, v = .insufficient n m

/-- A rejection, a drop, or an admitted frame with too few channels or with enough of them (R150, R126). -/
inductive StepEnds (cfg : Cfg) (us : Reference.Us) (D : Datagram) (dev : Nat → Answer) :
    Reference.Us → Verdict → List Event → Prop where
  | rejected {r : Malformed} (hd : decode D = .error r) :
      StepEnds cfg us D dev us (.malformed r) [.report (Reference.rejection D r)]
  | dropped {f : DataFrame} {v : Verdict} (hd : decode D = .ok f) (ha : admits cfg us f = false) (hv : v.IsDrop) :
      StepEnds cfg us D dev us v []
  | insufficient {f : DataFrame} (hd : decode D = .ok f) (ha : admits cfg us f = true)
      (hn : f.data.length < 3 * cfg.pixelCount.toNat) :
      StepEnds cfg us D dev (Reference.recorded us f) (.insufficient f.data.length (3 * cfg.pixelCount.toNat))
        [.report ⟨0x5#4, 1#1, BitVec.ofNat 16 f.data.length⟩]
  | applied {f : DataFrame} (hd : decode D = .ok f) (ha : admits cfg us f = true)
      (hn : 3 * cfg.pixelCount.toNat ≤ f.data.length) :
      StepEnds cfg us D dev (Reference.recorded us f)
        (.applied (Reference.failures cfg.devErrAbort dev cfg.pixelCount.toNat))
        (Reference.forwards cfg.devErrAbort dev f.data cfg.pixelCount.toNat)

section

variable {cfg : Cfg} {us us' : Reference.Us} {D : Datagram} {dev : Nat → Answer} {v : Verdict} {es : List Event}

theorem stepEnds_of_step (h : Reference.step cfg us D dev = (us', v, es)) : StepEnds cfg us D dev us' v es := by
  rw [Reference.step] at h
  cases hd : decode D with
  | error r =>
    rw [hd] at h
    cases h
    exact .rejected hd
  | ok f =>
    rw [hd] at h
    simp only [Reference.dispatch] at h
    by_cases hu : f.univ = cfg.targetUniverse
    case neg =>
      rw [if_pos hu] at h
      cases h
      exact .dropped hd (by simp [admits, hu]) (.inl rfl)
    rw [if_neg (not_not_intro hu)] at h
    by_cases hacc : Reference.accepts cfg (us f.univ) f.seq = true
    case neg =>
      rw [if_neg hacc] at h
      cases h
      exact .dropped hd (by simp [admits, hacc]) (.inr ⟨_, rfl⟩)
    rw [if_pos hacc] at h
    have ha : admits cfg us f = true := (admits_iff ..).2 ⟨hu, hacc⟩
    by_cases hn : f.data.length < 3 * cfg.pixelCount.toNat
    · rw [if_pos hn] at h
      cases h
      exact .insufficient hd ha hn
    · rw [if_neg hn] at h
      cases h
      exact .applied hd ha (Nat.le_of_not_lt hn)

/-- An admitted frame's number is not the one recorded: a repeated number has the delta 0 (R121, R122). -/
theorem recorded_ne_of_admits {f : DataFrame} (ha : admits cfg us f = true) :
    Reference.recorded us f f.univ ≠ us f.univ := by
  have hacc := ((admits_iff ..).1 ha).2
  rw [Reference.recorded, if_pos rfl]
  intro hsame
  rw [← hsame, accepts_some, inWindow_iff, seqDelta, BitVec.sub_self] at hacc
  exact absurd hacc.1 (by decide)

/-- The table's reads change exactly in the ends of an admitted frame (42_datagram_step.md R158 item 10). -/
theorem StepEnds.changes_iff (h : StepEnds cfg us D dev us' v es) : (∃ u, us' u ≠ us u) ↔ v.IsAccepted := by
  cases h with
  | rejected => simp [Verdict.IsAccepted]
  | dropped _ _ hv => rcases hv with rfl | ⟨d, rfl⟩ <;> simp [Verdict.IsAccepted]
  | insufficient _ ha => exact ⟨fun _ => .inr ⟨_, _, rfl⟩, fun _ => ⟨_, recorded_ne_of_admits ha⟩⟩
  | applied _ ha => exact ⟨fun _ => .inl ⟨_, rfl⟩, fun _ => ⟨_, recorded_ne_of_admits ha⟩⟩

/-- An accepted outcome comes of an admitted frame. -/
theorem StepEnds.admits_of_isAccepted (h : StepEnds cfg us D dev us' v es) (hv : v.IsAccepted) :
    ∃ f, decode D = .ok f ∧ admits cfg us f = true := by
  cases h with
  | rejected => simp [Verdict.IsAccepted] at hv
  | dropped _ _ hdrop => rcases hdrop with rfl | ⟨d, rfl⟩ <;> simp [Verdict.IsAccepted] at hv
  | insufficient hd ha => exact ⟨_, hd, ha⟩
  | applied hd ha => exact ⟨_, hd, ha⟩

end

/-- What an answered datagram's step shows is one of the four ends. -/
theorem step_datagram_ends {s t : State} {D : Datagram} {a : List Answer} {rest : List Input}
    (h : step { s with inbox := .datagram D a :: rest } = .next t) :
    ∃ us v es, StepEnds s.cfg (usRead s.us) D (s.taking a rest).oracle us v es ∧
      (∀ u, usRead t.us u = us u) ∧ t.log = s.log ++ [.completed v es] := by
  obtain ⟨-, hus, hlog, -⟩ := runPresented_shows (s := s.taking a rest) h
  exact ⟨_, _, _, stepEnds_of_step rfl, hus, hlog⟩

/-- The end that a given record names. -/
theorem step_datagram_ends_of_log {s t : State} {D : Datagram} {a : List Answer} {rest : List Input} {v : Verdict}
    {es : List Event} (h : step { s with inbox := .datagram D a :: rest } = .next t)
    (hlog : t.log = s.log ++ [.completed v es]) :
    ∃ us, StepEnds s.cfg (usRead s.us) D (s.taking a rest).oracle us v es := by
  obtain ⟨us, v', es', hends, -, hlog'⟩ := step_datagram_ends h
  obtain ⟨rfl, rfl⟩ := completed_of_log_eq hlog hlog'
  exact ⟨us, hends⟩

/-- The table after a datagram's step, whatever the device answered (60_exceptions.md R176). -/
theorem step_datagram_us {s t : State} {D : Datagram} {a : List Answer} {rest : List Input}
    (h : step { s with inbox := .datagram D a :: rest } = .next t) : t.us = tableAfter s.cfg s.us D :=
  runPresented_us (s := s.taking a rest) h

/-! ## The entry of a universe (10_state.md R28) -/

theorem accepts_some_iff (cfg : Cfg) (last q : Byte) : Reference.accepts cfg (some last) q = true ↔
    1 ≤ Reference.delta q last ∧ Reference.delta q last ≤ cfg.seqWindow.toNat := by
  rw [accepts_some, inWindow_iff, toNat_seqDelta]

/-- Settles O38: the four rows by what S2 decides of a target's frame, the rest by there being no other write. -/
theorem universeEntryTransitions : Obligations.UniverseEntryTransitions := by
  intro s t D a rest h
  rw [step_datagram_us h]
  refine ⟨fun f hd hu => ?_, fun hother => ?_, fun u hu => ?_⟩
  · have hadmits : admits s.cfg (usRead s.us) f = true ↔
        Reference.accepts s.cfg (usRead s.us f.univ) f.seq = true := by
      rw [admits_iff, and_iff_right hu]
    have written : admits s.cfg (usRead s.us) f = true →
        usRead (tableAfter s.cfg s.us D) f.univ = some f.seq := fun ha => by
      rw [tableAfter_of_ok hd, if_pos ha, usRead_usWrite, if_pos rfl]
    refine ⟨fun hnone => written (hadmits.2 (by rw [hnone, accepts_none])),
      fun last hlast => ⟨fun hin => ?_, fun hout => ?_⟩, fun u hne => usRead_tableAfter_of_ne (hu ▸ hne)⟩
    · exact written (hadmits.2 (by rwa [hlast, accepts_some_iff]))
    · rw [tableAfter_of_ok hd, if_neg, hlast]
      rw [hadmits, hlast, accepts_some_iff]
      omega
  · obtain heq | ⟨f, hd, ha, -⟩ := tableAfter_cases s.cfg s.us D
    · exact heq
    · exact absurd ((admits_iff ..).1 ha).1 (hother f hd)
  · obtain heq | ⟨f, -, -, heq⟩ := tableAfter_cases s.cfg s.us D
    · rwa [heq]
    · rw [heq, usRead_usWrite]
      split
      · exact Option.some_ne_none _
      · exact hu

/-- Settles O39: the record names the end, and the end tells whether the reads change. -/
theorem usChangesExactlyWhenAccepted : Obligations.UsChangesExactlyWhenAccepted := by
  intro s t D a rest h
  obtain ⟨us, v, es, hends, hus, hlog⟩ := step_datagram_ends h
  simp only [hus, hends.changes_iff]
  constructor
  · rintro (⟨failed, rfl⟩ | ⟨n, m, rfl⟩)
    · exact ⟨es, .inr ⟨failed, hlog⟩⟩
    · exact ⟨es, .inl ⟨n, m, hlog⟩⟩
  · rintro ⟨es', ⟨n, m, hlog'⟩ | ⟨failed, hlog'⟩⟩
    · exact .inr ⟨n, m, (completed_of_log_eq hlog hlog').1⟩
    · exact .inl ⟨failed, (completed_of_log_eq hlog hlog').1⟩

/-! ## A frame presented again (20_memory.md R46) -/

/-- A frame for the target whose number is the recorded one is a duplicate: its delta 0 is in no window (R121, R122). -/
theorem State.dispatched_of_duplicate {s : State} {f : DataFrame} (hu : f.univ = s.cfg.targetUniverse)
    (hr : usRead s.us f.univ = some f.seq) : s.dispatched f = (s.receive []).endStep (.dropSeq 0) := by
  have hzero : seqDelta f.seq f.seq = 0 := BitVec.sub_self _
  have hout : inWindow s.cfg.seqWindow 0 = false := rfl
  rw [State.dispatched, if_neg (not_not_intro hu), hr]
  simp only [hzero, hout, Bool.false_eq_true, if_false]

/-- Settles O44: the first step recorded the frame's own number, so the second finds it there. -/
theorem retransmissionIsDuplicateDrop : Obligations.RetransmissionIsDuplicateDrop := by
  intro s t D a a' rest v es h hlog hv
  obtain ⟨us, hends⟩ := step_datagram_ends_of_log h hlog
  obtain ⟨f, hd, ha⟩ := hends.admits_of_isAccepted hv
  obtain ⟨hinbox, -, -, hcfg, -⟩ := runPresented_shows (s := s.taking a (.datagram D a' :: rest)) h
  have hl : t.cfg.legal = true :=
    hcfg.symm ▸ legal_of_runPresented (s := s.taking a (.datagram D a' :: rest)) h
  have hu : f.univ = t.cfg.targetUniverse := hcfg.symm ▸ ((admits_iff ..).1 ha).1
  have hr : usRead t.us f.univ = some f.seq := by
    rw [step_datagram_us h, tableAfter_of_ok hd, if_pos ha, usRead_usWrite, if_pos rfl]
  refine ⟨_, (step_of_datagram hinbox).trans (runPresented_ok (s := t.taking a' rest) hl hd), ?_⟩
  rw [State.dispatched_of_duplicate (s := t.taking a' rest) hu hr]
  exact ⟨rfl, rfl⟩

/-- Settles O45: an applied frame has three channels for each pixel, and no frame has more than 512. -/
theorem tooManyPixelsNeverForward : Obligations.TooManyPixelsNeverForward := by
  intro s t D a rest failed es hpixels h hlog
  obtain ⟨us, hends⟩ := step_datagram_ends_of_log h hlog
  generalize hv : Verdict.applied failed = v at hends
  cases hends with
  | rejected => cases hv
  | dropped _ _ hdrop => rcases hdrop with rfl | ⟨d, rfl⟩ <;> cases hv
  | insufficient => cases hv
  | applied hd _ hn =>
    have hwf := decode_wellFormed hd
    simp only [DataFrame.WellFormed, Bool.and_eq_true, decide_eq_true_eq] at hwf
    omega

/-! ## Calls and reports (42_datagram_step.md R158 item 9; 60_exceptions.md R171) -/

/-- The pixel index of a call. -/
def Event.calledPixel : Event → Option U16
  | .call _ _ _ p => some p
  | .report _ => none

/-- The report, where the event is one. -/
def Event.asReport : Event → Option Report
  | .call _ _ _ _ => none
  | .report r => some r

section

variable (abort : Bool) (dev : Nat → Answer) (data : List Byte) (n : Nat)

/-- Each attempted pixel is called once, in pixel order (R125). -/
theorem calledPixels_forwards : (Reference.forwards abort dev data n).filterMap Event.calledPixel =
    (List.range (Reference.attempted abort dev n)).map (BitVec.ofNat 16) := by
  have hpixel : ∀ i, (Reference.pixelEvents data dev i).filterMap Event.calledPixel = [BitVec.ofNat 16 i] := fun i => by
    rw [Reference.pixelEvents]
    split <;> rfl
  rw [Reference.forwards, List.filterMap_flatMap]
  simp only [hpixel]
  exact List.flatMap_pure_eq_map _ _

/-- Each failed pixel is reported once, in pixel order (60_exceptions.md R176). -/
theorem reports_forwards : (Reference.forwards abort dev data n).filterMap Event.asReport =
    (Reference.failures abort dev n).map fun p => ⟨0x6#4, 1#1, p⟩ := by
  have hpixel : ∀ i, (Reference.pixelEvents data dev i).filterMap Event.asReport =
      if dev i = .err then [⟨0x6#4, 1#1, BitVec.ofNat 16 i⟩] else [] := fun i => by
    rw [Reference.pixelEvents]
    split <;> rfl
  rw [Reference.forwards, List.filterMap_flatMap, Reference.failures, List.map_map]
  simp only [hpixel]
  induction List.range (Reference.attempted abort dev n) with
  | nil => rfl
  | cons i is ih => by_cases he : dev i = .err <;> simp [he, ih]

end

/-- Every pixel is attempted where `DEV_ERR_ABORT` is clear (R125). -/
theorem attempted_false (dev : Nat → Answer) (n : Nat) : Reference.attempted false dev n = n := rfl

/-- Settles O40: only the last of the four ends has calls, those of the attempted pixels. -/
theorem callsOnlyWhenApplied : Obligations.CallsOnlyWhenApplied := by
  intro s t D a rest h
  obtain ⟨us, v, es, hends, -, hlog⟩ := step_datagram_ends h
  refine ⟨v, es, hlog, ?_⟩
  cases hends with
  | rejected => simp
  | dropped _ _ hdrop => rcases hdrop with rfl | ⟨d, rfl⟩ <;> simp
  | insufficient => simp
  | applied =>
    refine ⟨fun hne => absurd rfl (hne _), fun failed _ => ⟨_, attempted_le _ _ _, ?_, calledPixels_forwards ..⟩⟩
    intro hab
    rw [hab, attempted_false]

theorem rejection_code_sev (D : Datagram) (r : Malformed) : 1 ≤ (Reference.rejection D r).code.toNat ∧
    (Reference.rejection D r).code.toNat ≤ 4 ∧ (Reference.rejection D r).sev = 0 := by
  cases r with
  | wrongVector l => cases l <;> simp [Reference.rejection]
  | _ => simp [Reference.rejection]

/-- Settles O43: the events of each of the four ends, as the reference lists them. -/
theorem errorsDoNotMix : Obligations.ErrorsDoNotMix := by
  intro s t D a rest v es h hlog
  obtain ⟨us, hends⟩ := step_datagram_ends_of_log h hlog
  cases hends with
  | rejected => exact ⟨_, rfl, rejection_code_sev D _⟩
  | dropped _ _ hdrop => rcases hdrop with rfl | ⟨d, rfl⟩ <;> rfl
  | insufficient _ _ hn => exact ⟨hn, rfl⟩
  | applied => exact reports_forwards ..

/-! ## What is not state (10_state.md R33) -/

/-- Settles O41: table, configuration and inbox are functions of what the two states share; the rest is idle. -/
theorem deviceAnswersDoNotReachState : Obligations.DeviceAnswersDoNotReachState := by
  intro s t t' D a a' n rest h h'
  have hus : t.us = tableAfter s.cfg s.us D := step_datagram_us h
  have hus' : t'.us = tableAfter s.cfg s.us D := step_datagram_us (s := { s with draws := n }) h'
  obtain ⟨hinbox, -, -, hcfg, hrx, hframe, htriples, -⟩ := runPresented_shows (s := s.taking a rest) h
  obtain ⟨hinbox', -, -, hcfg', hrx', hframe', htriples', -⟩ :=
    runPresented_shows (s := State.taking { s with draws := n } a' rest) h'
  exact ⟨hus.trans hus'.symm, hcfg.trans hcfg'.symm, hinbox.trans hinbox'.symm, hframe.trans hframe'.symm,
    htriples.trans htriples'.symm, hrx.trans hrx'.symm⟩

theorem State.oracle_congr {s s' : State} (ha : s'.answers = s.answers) (hn : s'.draws = s.draws) :
    s'.oracle = s.oracle := by
  funext k
  rw [State.oracle, State.oracle, ha, hn]

/-- The datagram's step from two states that agree on the block, the configuration and the answers to come. -/
theorem runPresented_congr {s s' t : State} {D : Datagram} (hblock : s'.toBlock = s.toBlock) (hcfg : s'.cfg = s.cfg)
    (hdev : s'.oracle = s.oracle) (h : runPresented D s = .next t) :
    ∃ (t' : State) (v : Verdict) (es : List Event), runPresented D s' = .next t' ∧ t'.toBlock = t.toBlock ∧
      t'.cfg = t.cfg ∧ t.log = s.log ++ [.completed v es] ∧ t'.log = s'.log ++ [.completed v es] := by
  have hus : s'.us = s.us := congrArg Block.us hblock
  obtain ⟨t', h', -, -, hlog', hcfg', -⟩ :=
    runPresented_legal (s := s') (by rw [hcfg]; exact legal_of_runPresented h) D
  obtain ⟨-, -, hlog, hcfgt, -⟩ := runPresented_shows h
  have htable : t'.us = t.us := by rw [runPresented_us h', runPresented_us h, hcfg, hus]
  rw [hcfg, hus, hdev] at hlog'
  exact ⟨t', _, _, h', congrArg Block.mk htable, by rw [hcfg', hcfg, hcfgt], hlog, hlog'⟩

/-- Settles O46: a datagram's step reads only what the two states share, and a reset reads nothing. -/
theorem onlyBlockIsState : Obligations.OnlyBlockIsState := by
  intro s s' t x rest rest' hblock hcfg hdraws h
  cases x with
  | datagram D a =>
    obtain ⟨t', v, es, h', hblock', hcfg', hlog, hlog'⟩ := runPresented_congr (s := s.taking a rest)
      (s' := s'.taking a rest') hblock hcfg (State.oracle_congr rfl hdraws) h
    exact ⟨t', _, h', hblock', hcfg', hlog, hlog'⟩
  | reset st =>
    cases (step_of_reset (s := { s with inbox := .reset st :: rest }) rfl).symm.trans h
    exact ⟨_, [], step_of_reset rfl, rfl, rfl, (List.append_nil _).symm, (List.append_nil _).symm⟩
  | cutByReset D a kept st =>
    have hl : s.cfg.legal = true := by
      by_contra hl
      cases (step_of_cut_illegal (s := { s with inbox := .cutByReset D a kept st :: rest }) rfl
        (Bool.eq_false_of_not_eq_true hl)).symm.trans h
    obtain ⟨u, hu, -⟩ := runPresented_legal (s := s.taking a rest) hl D
    cases (step_of_cut (s := { s with inbox := .cutByReset D a kept st :: rest }) rfl hu).symm.trans h
    obtain ⟨u', v, es, hu', -, -, hlog, hlog'⟩ := runPresented_congr (s := s.taking a rest)
      (s' := s'.taking a rest') hblock hcfg (State.oracle_congr rfl hdraws) hu
    exact ⟨_, _, step_of_cut rfl hu', rfl, rfl, State.cutBy_log_of_completed hlog kept st,
      State.cutBy_log_of_completed hlog' kept st⟩

end Sys2Proof.Machine
end

section
/-! PROOFS. Operations run out of their place (93_implementation_defined.md U7, U8; log entry 9): each stops at the first
read that has no value. -/

namespace Sys2Proof.Machine

/-- Where what follows a read faults anyway on a read past the last byte, so does the read itself. -/
theorem withField_outOfBounds {D : Datagram} {f : WireField} {k : Nat → Result}
    (h : ∀ v, k v = .fault .datagramOutOfBounds) : withField D f k = .fault .datagramOutOfBounds := by
  by_cases hle : f.off + f.width ≤ D.length
  · rw [withField_of_le hle, h]
  · exact withField_of_lt (Nat.lt_of_not_le hle) k

section

variable {s : State} {D : Datagram}

/-- The property value count is the last field V5 reads (R94). -/
theorem exec_v5Lengths_outOfBounds (h : s.rx = some D) (hlen : D.length < 125) :
    exec .v5Lengths s = .fault .datagramOutOfBounds :=
  (withDatagram_some h _).trans <| withField_outOfBounds fun _ => withField_outOfBounds fun _ =>
    withField_outOfBounds fun _ => withField_of_lt (f := wire.pvc) hlen _

/-- The two reads of X are in bounds, but no accepted datagram has this length (R96; log entry 9). -/
theorem exec_xExtract_channelFileRange (h : s.rx = some D) (hlen : 115 ≤ D.length)
    (hrange : D.length < 127 ∨ 638 < D.length) : exec .xExtract s = .fault .channelFileRange := by
  refine (withDatagram_some h _).trans ?_
  rw [withField_of_le (f := wire.univ) hlen, withField_of_le (by simp only; omega)]
  exact if_neg (by simp only; omega)

/-- A channel the configured pixels need holds no value (10_state.md R21). -/
theorem exec_s4Map_unwritten {f : FrameRegs} (h : s.frame = some f) (hlen : f.ch.length < 3 * s.cfg.pixelCount.toNat) :
    exec .s4Map s = .fault .registerUnwritten := by
  refine (withFrame_some h _).trans ?_
  rw [mapPixels_none f.ch s.cfg.pixelCount.toNat 0 (by omega) (by rwa [Nat.zero_add])]

end

/-- Settles O47: each operation's first read without a value, by the lemma of that read. -/
theorem outOfPlaceReadsFault : Obligations.OutOfPlaceReadsFault := by
  refine ⟨fun s h => ?_, fun s D h => ?_, fun s h => ?_, fun s f h hlen => exec_s4Map_unwritten h hlen,
    fun s h => withTriples_none h _, fun s ts h hlen => (withTriples_some h _).trans (if_pos hlen)⟩
  · exact ⟨withDatagram_none h _, withDatagram_none h _, withDatagram_none h _, withDatagram_none h _,
      withDatagram_none h _, withDatagram_none h _, withDatagram_none h _⟩
  · exact ⟨fun hlen => (withDatagram_some h _).trans (withField_of_lt (f := wire.rootVec) hlen _),
      fun hlen => (withDatagram_some h _).trans (withField_of_lt (f := wire.frameVec) hlen _),
      fun hlen => (withDatagram_some h _).trans (withField_of_lt (f := wire.dmpVec) hlen _),
      exec_v5Lengths_outOfBounds h,
      fun hlen => (withDatagram_some h _).trans (withField_of_lt (f := wire.startCode) hlen _),
      fun hlen => (withDatagram_some h _).trans (withField_of_lt (f := wire.univ) hlen _),
      exec_xExtract_channelFileRange h⟩
  · exact ⟨withFrame_none h _, withFrame_none h _, withFrame_none h _, withFrame_none h _⟩

end Sys2Proof.Machine
end
